-- ==== Sys2Proof/Word.lean ====
section
/-! DEFINITION. The plain value types of the block (00_scope.md R10, R11).

A TIMESTAMP is an unsigned tick count in `0 .. 2^TS_W - 1` (R8, R11).  The rules only compare timestamps and subtract them in
exact integers, which never wrap (R11), so a timestamp is a count and not a word: its Lean type is `Nat` throughout.  That
it fits the `TS_W`-bit bus is the check `Config.Params.fits`, made where a frame is decoded
(93_implementation_defined.md I4). -/

namespace Sys2Proof

/-- A byte: an unsigned integer in 0..255 (R11), bit `k` of weight `2^k` (R10). -/
abbrev Byte := BitVec 8

end Sys2Proof
end

