-- ==== Sys2Proof/Config.lean ====
section
/-! DEFINITION. The parameters of one instance of the block and its fixed constants (00_scope.md R8, R9, R30).

`TS_W`, `TICK_HZ` and `GAP_MAX` are OPEN parameters: every function that reads one takes a `Params` as an argument, as
10_state.md R30 asks.  `Config.params` is the instance that `exec` and `step` run.  It is built from constants without a
body, so a statement about `exec` or `step` holds for every legal choice of the three (log entries 1 and 2). -/

namespace Sys2Proof.Config

/-- The parameters of one instance (R8).  The two proof fields are the instantiation predicate of
93_implementation_defined.md I3: a configuration that breaks it cannot be built. -/
structure Params where
  /-- `TS_W`, the width in bits of every timestamp. -/
  tsW : Nat
  /-- `TICK_HZ`, timestamp ticks per second. -/
  tickHz : Nat
  /-- `GAP_MAX`, the largest inter-byte gap, in ticks, that keeps a partial packet. -/
  gapMax : Nat
  /-- `TICK_HZ` is a positive integer. -/
  tickHz_pos : 0 < tickHz
  /-- `GAP_MAX < 2 * TICK_HZ` (R238). -/
  gapMax_lt : gapMax < 2 * tickHz
  deriving DecidableEq, Repr

/-- Instantiation from three numbers: an illegal configuration is rejected (I3). -/
def Params.ofNumbers (tsW tickHz gapMax : Nat) : Option Params :=
  if h : 0 < tickHz ∧ gapMax < 2 * tickHz then some ⟨tsW, tickHz, gapMax, h.1, h.2⟩ else none

/-- The timestamp `t` fits the `TS_W`-bit bus: cutting it to `TS_W` bits loses nothing
(`Laws.fits_iff`: it is `t < 2^TS_W`). -/
def Params.fits (p : Params) (t : Nat) : Bool := t % 2 ^ p.tsW == t

/-- The integrator's `TS_W` (92_eei_decisions.md D4): any width. -/
opaque tsW : Nat

/-- The integrator's `TICK_HZ`, less one: so `TICK_HZ` is any positive integer (D4). -/
opaque tickHzLessOne : Nat

/-- The integrator's `GAP_MAX`: any number below `2 * TICK_HZ` (D6). -/
opaque gapMaxChoice : Fin (2 * tickHzLessOne + 2)

/-- The parameters of the instance that `exec` and `step` run: any legal ones. -/
def params : Params where
  tsW := tsW
  tickHz := tickHzLessOne + 1
  gapMax := gapMaxChoice.val
  tickHz_pos := Nat.succ_pos _
  gapMax_lt := gapMaxChoice.isLt

/-- The configuration of the derived vectors of 95_test_vectors.md: `TICK_HZ = 1 000 000`, `GAP_MAX = 1`, `TS_W = 64`. -/
def vectorParams : Params := ⟨64, 1000000, 1, by decide, by decide⟩

/-- `PKT_LEN`, bytes per packet (R8). -/
def pktLen : Nat := 6

/-- `PAYLOAD_LEN`, payload bytes per packet (R8). -/
def payloadLen : Nat := 5

/-- `CHK_MASK`, the XOR mask of the checksum (R8). -/
def chkMask : Byte := 0x55

/-- The mask of the features selector: bits 7 and 4 of `p[0]` (30_encoding.md R65). -/
def featuresMask : Byte := 0x90

end Sys2Proof.Config
end

