-- ==== Sys2Proof/Syntax.lean ====
section
/-! DEFINITION. The instructions: one constructor per row of spec/opcode_table.json (30_encoding.md R61, R72). -/

namespace Sys2Proof

/-- The source of a valid packet (10_state.md R33): the indoor unit or the control panel. -/
inductive Source where
  | panel
  | unit
  deriving DecidableEq, Repr

/-- Five bytes in arrival order: a payload `p[0..4]`, or a residual `unknown_bits` (R63, R31). -/
structure Payload where
  p0 : Byte
  p1 : Byte
  p2 : Byte
  p3 : Byte
  p4 : Byte
  deriving DecidableEq, Repr

/-- A packet: six bytes `b[0..5]` in arrival order (R63, 20_memory.md R42). -/
structure Packet where
  b0 : Byte
  b1 : Byte
  b2 : Byte
  b3 : Byte
  b4 : Byte
  /-- The checksum trailer. -/
  b5 : Byte
  deriving DecidableEq, Repr

/-- The payload of a packet: bytes 0 to 4 (R63). -/
def Packet.payload (b : Packet) : Payload := ⟨b.b0, b.b1, b.b2, b.b3, b.b4⟩

/-- What the command port carries in one step: the 10-bit control word and the two timestamp buses (R60). -/
structure Frame where
  /-- `value` in bits 9..2, `cmd` in bits 1..0. -/
  word : BitVec 10
  inStart : Nat
  inEnd : Nat
  deriving DecidableEq, Repr

/-- The instructions.  The first four are the input commands (format cmd10, R61); the last four are the packet classes
(format packet48, R72), which the DATA command that completes a packet runs.  A packet class carries the packet and the
packet's two times (40_frame_aggregator.md R109). -/
inductive Instr where
  /-- IDLE: no frame this step (R100). -/
  | idle
  /-- DATA: one byte event (R102). -/
  | data (value : Byte) (inStart inEnd : Nat)
  /-- OTHER: a frame whose tag is not byte-data (R101). -/
  | other
  /-- SESSION_RESET (R104). -/
  | sessionReset
  /-- INVALID_CHECKSUM: a completed packet that fails validation (R181). -/
  | invalidChecksum (b : Packet) (startTime endTime : Nat)
  /-- UNIT_RESPONSE: a valid packet whose source is Unit (R140). -/
  | unitResponse (b : Packet) (startTime endTime : Nat)
  /-- PANEL_FEATURES: a valid Panel packet with the features selector set (R151). -/
  | panelFeatures (b : Packet) (startTime endTime : Nat)
  /-- PANEL_STATUS: any other valid Panel packet (R152). -/
  | panelStatus (b : Packet) (startTime endTime : Nat)
  deriving DecidableEq, Repr

end Sys2Proof
end

