-- ==== Sys2Proof/Machine/Checksum.lean ====
section
/-! DEFINITION. The Checksum Validator (41_checksum.md): a pure function with no state. -/

namespace Sys2Proof.Machine

/-- The sum of the five payload bytes modulo 256, XOR `CHK_MASK` (R120).  Byte addition drops the carries past bit 7. -/
def checksum (p : Payload) : Byte :=
  (p.p0 + p.p1 + p.p2 + p.p3 + p.p4) ^^^ Config.chkMask

/-- The trailer equals the checksum of the payload (R121). -/
def validate (b : Packet) : Bool :=
  b.b5 == checksum b.payload

end Sys2Proof.Machine
end

