-- ==== Sys2Proof/Machine/Classifier.lean ====
section
/-! DEFINITION. The Source Classifier (42_classifier.md): a comparator with no state of its own. -/

namespace Sys2Proof.Machine

/-- The classification gap `start - last_end`, an exact integer that may be negative (R130, R11). -/
def classificationGap (startTime lastEnd : Nat) : Int :=
  (startTime : Int) - (lastEnd : Int)

/-- The source of a valid packet, from the anchor as it stood before the step and the packet's start (R131).
`10 * gap < 3 * TICK_HZ` is `gap < 300 ms`, with no rounding (R9). -/
def classify (p : Config.Params) (anchor : Option Nat) (startTime : Nat) : Source :=
  match anchor with
  | none => .panel
  | some lastEnd =>
    if 10 * classificationGap startTime lastEnd < 3 * (p.tickHz : Int) then .unit else .panel

end Sys2Proof.Machine
end

