-- ==== Sys2Proof/Machine/Flags.lean ====
section
/-! DEFINITION. Every condition the rules compute: the gap test, the selector and no-reading bits, the mode and
fan-speed tables with their known bits, and the single-bit fields of a status packet. -/

namespace Sys2Proof.Machine

/-- The inter-byte gap test of one DATA byte against the end of the last buffered byte, in exact integers and strict
(R103): a gap equal to `GAP_MAX`, or a negative one, does not discard. -/
def gapExceeded (p : Config.Params) (prevEnd inStart : Nat) : Bool :=
  decide ((inStart : Int) - (prevEnd : Int) > (p.gapMax : Int))

/-- `(p[0] & 0x90) == 0x90`: the features-inquiry selector (R65, R150). -/
def featuresSelected (p0 : Byte) : Bool :=
  (p0 &&& Config.featuresMask) == Config.featuresMask

/-- The Unit's no-reading flag `p[1][7]` (R64). -/
def noReading (p1 : Byte) : Bool := p1.getLsbD 7

/-- The named operating modes (R67). -/
inductive Mode where
  | cool
  | dH
  | fan
  | heat
  deriving DecidableEq, Repr

/-- The named fan speeds (R68). -/
inductive FanSpeed where
  | low
  | medium
  | high
  | power
  deriving DecidableEq, Repr

/-- The mode table, by 3-bit code (R67): codes 3, 5, 6 and 7 have no name. -/
def modeOfCode (code : BitVec 3) : Option Mode :=
  if code = 0 then some .cool
  else if code = 1 then some .dH
  else if code = 2 then some .fan
  else if code = 4 then some .heat
  else none

/-- The fan-speed table, by 3-bit code (R68): codes 3, 5, 6 and 7 have no name. -/
def fanOfCode (code : BitVec 3) : Option FanSpeed :=
  if code = 0 then some .low
  else if code = 1 then some .medium
  else if code = 2 then some .high
  else if code = 4 then some .power
  else none

/-- `mode_known`: the code is in the mode table (R152). -/
def modeKnown (code : BitVec 3) : Bool := (modeOfCode code).isSome

/-- `fan_known`: the code is in the fan-speed table (R152). -/
def fanKnown (code : BitVec 3) : Bool := (fanOfCode code).isSome

/-- `resistor_active = p[0][3]` (R154). -/
def resistorActive (p : Payload) : Bool := p.p0.getLsbD 3

/-- `running = p[0][2]` (R154). -/
def running (p : Payload) : Bool := p.p0.getLsbD 2

/-- `settings_changed = p[0][0]` (R154). -/
def settingsChanged (p : Payload) : Bool := p.p0.getLsbD 0

/-- `plasma = p[2][7]` (R156). -/
def plasma (p : Payload) : Bool := p.p2.getLsbD 7

/-- `swivel = p[3][5]` (R159). -/
def swivel (p : Payload) : Bool := p.p3.getLsbD 5

/-- `swirl = p[4][0]` (R159). -/
def swirl (p : Payload) : Bool := p.p4.getLsbD 0

end Sys2Proof.Machine
end

