-- ==== Sys2Proof/WellFormed.lean ====
section
/-! DEFINITION. Which instructions the encoding admits: timestamps fit their bus (R60, I4), and a packet class meets the
part of its condition that the packet alone decides (30_encoding.md R72).  The rest of a class's condition reads the
anchor and is `agreesWithAnchor`. -/

namespace Sys2Proof

/-- The instruction is well formed on an instance with parameters `p`. -/
def wellFormedAt (p : Config.Params) (i : Instr) : Bool :=
  match i with
  | .idle => true
  | .data _ inStart inEnd => p.fits inStart && p.fits inEnd
  | .other => true
  | .sessionReset => true
  | .invalidChecksum b startTime endTime =>
    p.fits startTime && p.fits endTime && !Machine.validate b
  | .unitResponse b startTime endTime =>
    p.fits startTime && p.fits endTime && Machine.validate b
  | .panelFeatures b startTime endTime =>
    p.fits startTime && p.fits endTime && Machine.validate b && Machine.featuresSelected b.b0
  | .panelStatus b startTime endTime =>
    p.fits startTime && p.fits endTime && Machine.validate b && !Machine.featuresSelected b.b0

/-- The instruction is well formed on the instance the model runs. -/
def wellFormed (i : Instr) : Bool := wellFormedAt Config.params i

/-- The part of a packet class's condition that reads the anchor (R72 steps 2 to 4): a Unit class where the classifier
gives Unit, a Panel class where it gives Panel.  Every other instruction agrees with every anchor. -/
def agreesWithAnchorAt (p : Config.Params) (anchor : Option Nat) (i : Instr) : Bool :=
  match i with
  | .idle => true
  | .data _ _ _ => true
  | .other => true
  | .sessionReset => true
  | .invalidChecksum _ _ _ => true
  | .unitResponse _ startTime _ => Machine.classify p anchor startTime == .unit
  | .panelFeatures _ startTime _ => Machine.classify p anchor startTime == .panel
  | .panelStatus _ startTime _ => Machine.classify p anchor startTime == .panel

/-- `agreesWithAnchorAt` on the instance the model runs. -/
def agreesWithAnchor (anchor : Option Nat) (i : Instr) : Bool :=
  agreesWithAnchorAt Config.params anchor i

end Sys2Proof
end

