-- ==== Sys2Proof/Decode.lean ====
section
/-! DEFINITION. The two encodings of the block (30_encoding.md): the 10-bit input command with its two timestamp buses
(R60 to R62), and the 6-byte packet with its class decode order (R63, R72).  Decoding is total; the one thing it rejects,
by name, is a timestamp that no `TS_W`-bit bus can carry (93_implementation_defined.md I4). -/

namespace Sys2Proof

/-- Why a decoder rejects its input. -/
inductive Reject where
  /-- A timestamp outside `0 .. 2^TS_W - 1` (I4). -/
  | timestampOutOfRange
  deriving DecidableEq, Repr

/-! ## The input command (R60, R61) -/

/-- `cmd`, bits 1..0 of the control word (R60). -/
def Frame.cmd (f : Frame) : BitVec 2 := f.word.extractLsb' 0 2

/-- `value`, bits 9..2 of the control word (R60). -/
def Frame.value (f : Frame) : Byte := f.word.extractLsb' 2 8

/-- The command a frame carries (R61).  All four codes are defined; only DATA reads `value` and the two buses. -/
def decodeFrameAt (p : Config.Params) (f : Frame) : Except Reject Instr :=
  if f.cmd = 0 then .ok .idle
  else if f.cmd = 1 then
    if p.fits f.inStart && p.fits f.inEnd then .ok (.data f.value f.inStart f.inEnd)
    else .error .timestampOutOfRange
  else if f.cmd = 2 then .ok .other
  else .ok .sessionReset

/-- `decodeFrameAt` on the instance the model runs. -/
def decodeFrame (f : Frame) : Except Reject Instr := decodeFrameAt Config.params f

/-! ## The packet (R63, R72) -/

/-- The four packet classes, in the order of the decode (R72). -/
inductive PacketClass where
  | invalidChecksum
  | unitResponse
  | panelFeatures
  | panelStatus
  deriving DecidableEq, Repr

/-- The packet class decode order (R72, R180): validation, then classification, then the features selector. -/
def packetClass (p : Config.Params) (anchor : Option Nat) (b : Packet) (startTime : Nat) :
    PacketClass :=
  if Machine.validate b = false then .invalidChecksum
  else if Machine.classify p anchor startTime = .unit then .unitResponse
  else if Machine.featuresSelected b.b0 then .panelFeatures
  else .panelStatus

/-- The instruction of a packet class, with its operands. -/
def classInstr (c : PacketClass) (b : Packet) (startTime endTime : Nat) : Instr :=
  match c with
  | .invalidChecksum => .invalidChecksum b startTime endTime
  | .unitResponse => .unitResponse b startTime endTime
  | .panelFeatures => .panelFeatures b startTime endTime
  | .panelStatus => .panelStatus b startTime endTime

/-- The packet class instruction that a completed packet runs, given the anchor before the step. -/
def decodePacketAt (p : Config.Params) (anchor : Option Nat) (b : Packet) (startTime endTime : Nat) :
    Instr :=
  classInstr (packetClass p anchor b startTime) b startTime endTime

/-- `decodePacketAt` on the instance the model runs. -/
def decodePacket (anchor : Option Nat) (b : Packet) (startTime endTime : Nat) : Instr :=
  decodePacketAt Config.params anchor b startTime endTime

/-- The 48-bit word `P` of a packet: byte `i` in bits `8i+7 .. 8i` (R63). -/
def Packet.toWord (b : Packet) : BitVec 48 :=
  b.b5 ++ (b.b4 ++ (b.b3 ++ (b.b2 ++ (b.b1 ++ b.b0))))

/-- The packet whose word is `w` (R63). -/
def Packet.ofWord (w : BitVec 48) : Packet :=
  ⟨w.extractLsb' 0 8, w.extractLsb' 8 8, w.extractLsb' 16 8, w.extractLsb' 24 8, w.extractLsb' 32 8,
    w.extractLsb' 40 8⟩

/-! ## Decoding and encoding one instruction -/

/-- The encoded form of an instruction: a frame of the command port (format cmd10), or a packet word with the packet's
start and end (format packet48). -/
inductive Encoded where
  | command (f : Frame)
  | packet (word : BitVec 48) (startTime endTime : Nat)
  deriving DecidableEq, Repr

/-- The decoder, total on both forms.  A packet is decoded against the anchor as it stands before the step (R72, R130). -/
def decodeAt (p : Config.Params) (anchor : Option Nat) (e : Encoded) : Except Reject Instr :=
  match e with
  | .command f => decodeFrameAt p f
  | .packet w startTime endTime =>
    if p.fits startTime && p.fits endTime then
      .ok (decodePacketAt p anchor (Packet.ofWord w) startTime endTime)
    else .error .timestampOutOfRange

/-- `decodeAt` on the instance the model runs. -/
def decode (anchor : Option Nat) (e : Encoded) : Except Reject Instr :=
  decodeAt Config.params anchor e

/-- The control word with `value` in bits 9..2 and `cmd` in bits 1..0 (R60). -/
def commandWord (value : Byte) (cmd : BitVec 2) : BitVec 10 := value ++ cmd

/-- The frame of a command.  The bits that IDLE, OTHER and SESSION_RESET ignore are written 0. -/
def commandFrame (value : Byte) (cmd : BitVec 2) (inStart inEnd : Nat) : Frame :=
  ⟨commandWord value cmd, inStart, inEnd⟩

/-- The encoder, from the same tables (R60, R61, R63). -/
def encode (i : Instr) : Encoded :=
  match i with
  | .idle => .command (commandFrame 0 0 0 0)
  | .data value inStart inEnd => .command (commandFrame value 1 inStart inEnd)
  | .other => .command (commandFrame 0 2 0 0)
  | .sessionReset => .command (commandFrame 0 3 0 0)
  | .invalidChecksum b startTime endTime => .packet b.toWord startTime endTime
  | .unitResponse b startTime endTime => .packet b.toWord startTime endTime
  | .panelFeatures b startTime endTime => .packet b.toWord startTime endTime
  | .panelStatus b startTime endTime => .packet b.toWord startTime endTime

/-! ## The opcode table -/

/-- One row of spec/opcode_table.json: the number of bits of its format, and the match and mask of its bit pattern. -/
structure TableRow where
  mnemonic : String
  nbits : Nat
  matchBits : Nat
  mask : Nat
  deriving DecidableEq, Repr

/-- The table's row of an instruction. -/
def tableRow (i : Instr) : TableRow :=
  match i with
  | .idle => ⟨"IDLE", 10, 0x000, 0x003⟩
  | .data _ _ _ => ⟨"DATA", 10, 0x001, 0x003⟩
  | .other => ⟨"OTHER", 10, 0x002, 0x003⟩
  | .sessionReset => ⟨"SESSION_RESET", 10, 0x003, 0x003⟩
  | .invalidChecksum _ _ _ => ⟨"INVALID_CHECKSUM", 48, 0, 0⟩
  | .unitResponse _ _ _ => ⟨"UNIT_RESPONSE", 48, 0, 0⟩
  | .panelFeatures _ _ _ => ⟨"PANEL_FEATURES", 48, 0x90, 0x90⟩
  | .panelStatus _ _ _ => ⟨"PANEL_STATUS", 48, 0, 0⟩

/-- The word of an encoded instruction as a number, as the table numbers its bits. -/
def Encoded.bits (e : Encoded) : Nat :=
  match e with
  | .command f => f.word.toNat
  | .packet w _ _ => w.toNat

/-- The number of bits of an encoded instruction's word. -/
def Encoded.width (e : Encoded) : Nat :=
  match e with
  | .command _ => 10
  | .packet _ _ _ => 48

/-- The longest command format of the table, in whole bytes: up to here a table word is a command. -/
def commandBits : Nat := 16

/-- The instruction the decoder reads from a table word of `nbits` bits.  The side buses are 0, since the table gives
them no bits.  A packet word is decoded with the anchor absent, as it is after reset, so it is never a UNIT_RESPONSE
(R231; log entry 7).  A number too wide for its format is no word of the table. -/
def decodeTableWord (nbits w : Nat) : Option Instr :=
  if nbits ≤ commandBits then
    if w < 2 ^ 10 then (decodeFrame ⟨BitVec.ofNat 10 w, 0, 0⟩).toOption else none
  else
    if w < 2 ^ 48 then (decode none (.packet (BitVec.ofNat 48 w) 0 0)).toOption else none

end Sys2Proof
end

