-- ==== Sys2Proof/Machine/Operands.lean ====
section
/-! DEFINITION. Operand assembly: the multi-bit fields of a payload and the residuals (30_encoding.md R64, R66, R69).
Nothing is sign-extended and nothing is rounded. -/

namespace Sys2Proof.Machine

/-- `mode_code = p[0][6:4]` (R153). -/
def modeCode (p : Payload) : BitVec 3 := p.p0.extractLsb' 4 3

/-- `fan_code = p[2][6:4]` (R157). -/
def fanCode (p : Payload) : BitVec 3 := p.p2.extractLsb' 4 3

/-- `room_temp_half = zext_9(p[1]) + 20`: the room temperature in half-degree steps (R141, R155). -/
def roomTempHalf (p : Payload) : BitVec 9 := p.p1.setWidth 9 + 20

/-- `set_temp = zext_5(p[2][3:0]) + 16` (R158). -/
def setTemp (p : Payload) : BitVec 5 := (p.p2.extractLsb' 0 4).setWidth 5 + 16

/-- The Unit residual (R142): byte 1 is zero exactly when the temperature was decoded from it. -/
def unitResidual (p : Payload) (tempPresent : Bool) : Payload :=
  ⟨p.p0, if tempPresent then 0 else p.p1, p.p2, p.p3, p.p4⟩

/-- The features residual (R151): bytes 1 to 3, and none at all when the three are zero. -/
def featuresResidual (p : Payload) : Option Payload :=
  if p.p1 = 0 ∧ p.p2 = 0 ∧ p.p3 = 0 then none else some ⟨0, p.p1, p.p2, p.p3, 0⟩

/-- The status residual (R160): the bits that no status field consumes, less bit 7 of `p[0]` (R161). -/
def statusResidual (p : Payload) : Payload :=
  ⟨p.p0 &&& 0x02, 0, 0, p.p3 &&& 0xDF, p.p4 &&& 0xFE⟩

end Sys2Proof.Machine
end

