-- ==== Sys2Proof/Machine/Record.lean ====
section
/-! DEFINITION. What the block outputs: the record as a tagged union (10_state.md R33), the output bundle at bit level
(R31, R32), and the two maps between them (45_packet_emitter.md R181 to R183). -/

namespace Sys2Proof.Machine

/-- The fields of a Panel status record (R33, R152).  Whether a code is known is a function of the code. -/
structure StatusFields where
  mode : BitVec 3
  resistor : Bool
  running : Bool
  settingsChanged : Bool
  roomTempHalf : BitVec 9
  plasma : Bool
  fan : BitVec 3
  setTemp : BitVec 5
  swivel : Bool
  swirl : Bool
  deriving DecidableEq, Repr

/-- The field set of a valid record (R33). -/
inductive Fields where
  /-- Unit: the room temperature, or no reading (R140). -/
  | unit (roomTempHalf : Option (BitVec 9))
  /-- Panel features inquiry: no other field (R151). -/
  | panelFeatures
  /-- Panel status (R152). -/
  | panelStatus (f : StatusFields)
  deriving DecidableEq, Repr

/-- One record (R33). -/
inductive Record where
  | invalidChecksum (startTime endTime : Nat) (raw : Packet)
  | validPacket (startTime endTime : Nat) (payload : Payload) (checksum : Byte) (source : Source)
      (fields : Fields) (unknownBits : Option Payload)
  deriving DecidableEq, Repr

/-- The source whose decoder makes a field set (R134). -/
def Fields.source (f : Fields) : Source :=
  match f with
  | .unit _ => .unit
  | .panelFeatures => .panel
  | .panelStatus _ => .panel

/-- A valid record's source is the one whose decoder made its fields (R134, R183). -/
def Record.consistent (r : Record) : Bool :=
  match r with
  | .invalidChecksum _ _ _ => true
  | .validPacket _ _ _ _ source fields _ => source == fields.source

/-- The output bundle (R31).  A field of one bit is a `Bool`, 1 = `true`. -/
structure Bundle where
  /-- `out_valid`: this step emits a record. -/
  valid : Bool
  /-- `out_kind`: `false` = `InvalidChecksum`, `true` = `ValidPacket`. -/
  kind : Bool
  /-- `out_start`. -/
  startTime : Nat
  /-- `out_end`. -/
  endTime : Nat
  /-- `out_byte[0..5]`. -/
  bytes : Packet
  /-- `out_checksum`. -/
  checksum : Byte
  /-- `out_source`: `false` = Panel, `true` = Unit. -/
  source : Bool
  /-- `out_features`. -/
  features : Bool
  /-- `out_temp_present`. -/
  tempPresent : Bool
  /-- `out_room_temp_half`. -/
  roomTempHalf : BitVec 9
  /-- `out_mode_code`. -/
  modeCode : BitVec 3
  /-- `out_mode_known`. -/
  modeKnown : Bool
  /-- `out_resistor`. -/
  resistor : Bool
  /-- `out_running`. -/
  running : Bool
  /-- `out_settings_changed`. -/
  settingsChanged : Bool
  /-- `out_plasma`. -/
  plasma : Bool
  /-- `out_fan_code`. -/
  fanCode : BitVec 3
  /-- `out_fan_known`. -/
  fanKnown : Bool
  /-- `out_set_temp`. -/
  setTemp : BitVec 5
  /-- `out_swivel`. -/
  swivel : Bool
  /-- `out_swirl`. -/
  swirl : Bool
  /-- `out_unk_present`. -/
  unkPresent : Bool
  /-- `out_unk[0..4]`. -/
  unk : Payload
  deriving DecidableEq, Repr

/-- Five zero bytes. -/
def zeroPayload : Payload := ⟨0, 0, 0, 0, 0⟩

/-- Six zero bytes. -/
def zeroPacket : Packet := ⟨0, 0, 0, 0, 0, 0⟩

/-- The bundle of a step that emits no record: every field 0 (R32). -/
def Bundle.noRecord : Bundle where
  valid := false
  kind := false
  startTime := 0
  endTime := 0
  bytes := zeroPacket
  checksum := 0
  source := false
  features := false
  tempPresent := false
  roomTempHalf := 0
  modeCode := 0
  modeKnown := false
  resistor := false
  running := false
  settingsChanged := false
  plasma := false
  fanCode := 0
  fanKnown := false
  setTemp := 0
  swivel := false
  swirl := false
  unkPresent := false
  unk := zeroPayload

/-- The fields that every record carries (R183): valid, kind, start, end and the six bytes; the rest 0. -/
def Bundle.base (kind : Bool) (startTime endTime : Nat) (b : Packet) : Bundle :=
  { Bundle.noRecord with
    valid := true, kind := kind, startTime := startTime, endTime := endTime, bytes := b }

/-- Drive the residual: `out_unk_present` and `out_unk` (R31, R33). -/
def Bundle.withUnknown (o : Bundle) (u : Option Payload) : Bundle :=
  match u with
  | none => o
  | some unk => { o with unkPresent := true, unk := unk }

/-- Drive the fields of the record's variant; the other variants' fields keep the value they have (R183). -/
def Bundle.withFields (o : Bundle) (f : Fields) : Bundle :=
  match f with
  | .unit none => { o with source := true }
  | .unit (some t) => { o with source := true, tempPresent := true, roomTempHalf := t }
  | .panelFeatures => { o with features := true }
  | .panelStatus s =>
    { o with
      tempPresent := true, roomTempHalf := s.roomTempHalf
      modeCode := s.mode, modeKnown := Machine.modeKnown s.mode
      resistor := s.resistor, running := s.running, settingsChanged := s.settingsChanged
      plasma := s.plasma, fanCode := s.fan, fanKnown := Machine.fanKnown s.fan
      setTemp := s.setTemp, swivel := s.swivel, swirl := s.swirl }

/-- A payload and a trailer as one packet. -/
def Payload.packet (p : Payload) (trailer : Byte) : Packet := ⟨p.p0, p.p1, p.p2, p.p3, p.p4, trailer⟩

/-- The bundle that a record drives (R181, R182, R183). -/
def Record.bundle (r : Record) : Bundle :=
  match r with
  | .invalidChecksum startTime endTime raw => Bundle.base false startTime endTime raw
  | .validPacket startTime endTime payload checksum _ fields unknownBits =>
    ({ Bundle.base true startTime endTime (Payload.packet payload checksum) with checksum := checksum }.withFields
      fields).withUnknown unknownBits

/-- The field set that a valid record's bundle carries, read from the fields that name the variant (R183). -/
def Bundle.fieldsOf (o : Bundle) : Fields :=
  if o.source then .unit (if o.tempPresent then some o.roomTempHalf else none)
  else if o.features then .panelFeatures
  else
    .panelStatus
      { mode := o.modeCode, resistor := o.resistor, running := o.running, settingsChanged := o.settingsChanged
        roomTempHalf := o.roomTempHalf, plasma := o.plasma, fan := o.fanCode, setTemp := o.setTemp
        swivel := o.swivel, swirl := o.swirl }

/-- The record that a bundle carries, or none when `out_valid = 0` (R33): the consumer's reading of the bundle. -/
def Bundle.toRecord (o : Bundle) : Option Record :=
  if o.valid then
    if o.kind then
      some (.validPacket o.startTime o.endTime o.bytes.payload o.checksum o.fieldsOf.source o.fieldsOf
        (if o.unkPresent then some o.unk else none))
    else some (.invalidChecksum o.startTime o.endTime o.bytes)
  else none

end Sys2Proof.Machine
end

