-- ==== Sys2Proof/Machine/State.lean ====
section
/-! DEFINITION. The state of the block (10_state.md R20, R34), the bundle it drove in its last step (R31), the input
stream that stands before its command port (R60), the reasons a step can stop, and the state after reset. -/

namespace Sys2Proof.Machine

/-- The partial packet, as the record-assembly state machine holds it (R28, R107): `EMPTY` and `FILL1` to `FILL5`.
A state holds exactly the elements of R20 that mean something in it: the buffered values `buf[0..cnt-1]`, and when
`cnt > 0` the two times `first_start` and `prev_end`.  An element that R34 leaves unspecified has no value here, as
R34 and 92_eei_decisions.md D17 ask, so nothing can read it (log entry 3). -/
inductive Buffer where
  | empty
  | fill1 (b0 : Byte) (firstStart prevEnd : Nat)
  | fill2 (b0 b1 : Byte) (firstStart prevEnd : Nat)
  | fill3 (b0 b1 b2 : Byte) (firstStart prevEnd : Nat)
  | fill4 (b0 b1 b2 b3 : Byte) (firstStart prevEnd : Nat)
  | fill5 (b0 b1 b2 b3 b4 : Byte) (firstStart prevEnd : Nat)
  deriving DecidableEq, Repr

/-- `cnt`: how many byte events the buffer holds, 0 to 5 (R20, R22, D26). -/
def Buffer.cnt (k : Buffer) : Fin 6 :=
  match k with
  | .empty => 0
  | .fill1 _ _ _ => 1
  | .fill2 _ _ _ _ => 2
  | .fill3 _ _ _ _ _ => 3
  | .fill4 _ _ _ _ _ _ => 4
  | .fill5 _ _ _ _ _ _ _ => 5

/-- `buf[0..cnt-1]` in buffer order (R20). -/
def Buffer.bytes (k : Buffer) : List Byte :=
  match k with
  | .empty => []
  | .fill1 b0 _ _ => [b0]
  | .fill2 b0 b1 _ _ => [b0, b1]
  | .fill3 b0 b1 b2 _ _ => [b0, b1, b2]
  | .fill4 b0 b1 b2 b3 _ _ => [b0, b1, b2, b3]
  | .fill5 b0 b1 b2 b3 b4 _ _ => [b0, b1, b2, b3, b4]

/-- `first_start`, meaningful when `cnt > 0` (R20). -/
def Buffer.firstStart (k : Buffer) : Option Nat :=
  match k with
  | .empty => none
  | .fill1 _ t _ => some t
  | .fill2 _ _ t _ => some t
  | .fill3 _ _ _ t _ => some t
  | .fill4 _ _ _ _ t _ => some t
  | .fill5 _ _ _ _ _ t _ => some t

/-- `prev_end`, meaningful when `cnt > 0` (R20). -/
def Buffer.prevEnd (k : Buffer) : Option Nat :=
  match k with
  | .empty => none
  | .fill1 _ _ t => some t
  | .fill2 _ _ _ t => some t
  | .fill3 _ _ _ _ t => some t
  | .fill4 _ _ _ _ _ t => some t
  | .fill5 _ _ _ _ _ _ t => some t

/-- The whole state.  `buffer` and `anchor` are the block's own state (R20).  `out` is the bundle of the last step, which
each step drives anew and no step reads (R31, R32, R186).  `input` is the model's own field: the frames that the
upstream has yet to deliver to the command port, oldest first (R60; log entry 5). -/
structure State where
  buffer : Buffer
  /-- LG's `last_end`, an optional timestamp: `none` when `anchor_valid = 0`, `some last_end` when it is 1 (R20, R26). -/
  anchor : Option Nat
  out : Bundle
  input : List Frame
  deriving DecidableEq, Repr

/-- `cnt` (R20). -/
def State.cnt (s : State) : Fin 6 := s.buffer.cnt

/-- `buf[0..cnt-1]` (R20). -/
def State.bytes (s : State) : List Byte := s.buffer.bytes

/-- `first_start` (R20). -/
def State.firstStart (s : State) : Option Nat := s.buffer.firstStart

/-- `prev_end` (R20). -/
def State.prevEnd (s : State) : Option Nat := s.buffer.prevEnd

/-- `anchor_valid` (R20, R26). -/
def State.anchorValid (s : State) : Bool := s.anchor.isSome

/-- Why a step can stop with a fault: never.  The block has no trap, no exception and no fatal state (60_exceptions.md
R200, R207), so the type has no constructor. -/
inductive Fault where
  deriving DecidableEq, Repr

/-- Why a step can be refused. -/
inductive Refusal where
  /-- Raised by `exec` for an instruction without a meaning.  No arm raises it: every instruction is modelled.  Safe. -/
  | notModelled (mnemonic : String)
  /-- Raised by `step` for a DATA frame whose `in_start` or `in_end` is not below `2^TS_W`: no input bus can carry it
  (93_implementation_defined.md I4, "refuse").  Safe: the hardware never sees such a frame. -/
  | timestampOutOfRange
  deriving DecidableEq, Repr

/-- The state after power-on reset (R34, R230): buffer empty, anchor absent, no record driven, nothing at the port. -/
def State.reset : State where
  buffer := .empty
  anchor := none
  out := .noRecord
  input := []

end Sys2Proof.Machine
end

