-- ==== Sys2Proof/Machine/Ops.lean ====
section
/-! DEFINITION. The named operations over the state: the buffer, the anchor and the output bundle.

There is no memory to read or write (20_memory.md R40), and no exception to take or to return from (60_exceptions.md
R200, R206, R207): every error is reported in the record, in a known bit, or not at all (R201). -/

namespace Sys2Proof.Machine

/-- What appending a byte event to the buffer gives: a longer partial packet, or a completed packet with its times. -/
inductive Appended where
  | held (k : Buffer)
  | complete (b : Packet) (startTime endTime : Nat)
  deriving DecidableEq, Repr

/-- Append one byte event (40_frame_aggregator.md R102).  The first event of a buffer sets `first_start`, every held event
sets `prev_end`, and the sixth event completes the packet, whose times are the first event's start and the sixth
event's end (R109). -/
def Buffer.append (k : Buffer) (value : Byte) (inStart inEnd : Nat) : Appended :=
  match k with
  | .empty => .held (.fill1 value inStart inEnd)
  | .fill1 b0 t _ => .held (.fill2 b0 value t inEnd)
  | .fill2 b0 b1 t _ => .held (.fill3 b0 b1 value t inEnd)
  | .fill3 b0 b1 b2 t _ => .held (.fill4 b0 b1 b2 value t inEnd)
  | .fill4 b0 b1 b2 b3 t _ => .held (.fill5 b0 b1 b2 b3 value t inEnd)
  | .fill5 b0 b1 b2 b3 b4 t _ => .complete ⟨b0, b1, b2, b3, b4, value⟩ t inEnd

/-- The buffer's half of the gap test: `cnt > 0` and the byte starts more than `GAP_MAX` after `prev_end` (R103).
An empty buffer is never gap-tested (R106). -/
def Buffer.discards (p : Config.Params) (k : Buffer) (inStart : Nat) : Bool :=
  match k.prevEnd with
  | none => false
  | some prevEnd => gapExceeded p prevEnd inStart

/-- The buffer that the append sees: empty where the gap test discards the partial packet (R102, R105). -/
def Buffer.afterGapTest (p : Config.Params) (k : Buffer) (inStart : Nat) : Buffer :=
  if k.discards p inStart then .empty else k

/-- Drive "no record" for this step (R32). -/
def State.driveNothing (s : State) : State := { s with out := .noRecord }

/-- Hold the partial packet `k`; no record this step (R102). -/
def State.hold (s : State) (k : Buffer) : State := { s with buffer := k, out := .noRecord }

/-- End the session: buffer empty, anchor absent, no record (R104). -/
def State.clearSession (s : State) : State :=
  { s with buffer := .empty, anchor := none, out := .noRecord }

/-- End a packet with the record `r`: the packet's bytes are consumed whole (R102 "clear buffer", R203), the record is
driven, and the anchor becomes the packet's end, valid or not (R185). -/
def State.completePacket (s : State) (r : Record) (endTime : Nat) : State :=
  { s with buffer := .empty, anchor := some endTime, out := r.bundle }

end Sys2Proof.Machine
end

