-- ==== Sys2Proof/Machine/PanelDecoder.lean ====
section
/-! DEFINITION. The Field Decoder, Panel variant (44_panel_decoder.md). -/

namespace Sys2Proof.Machine

/-- `decode_panel_features` (R151): no field, and a residual of bytes 1 to 3 when one of them is not zero. -/
def decodePanelFeatures (p : Payload) : Fields × Option Payload :=
  (.panelFeatures, featuresResidual p)

/-- `decode_panel_status` (R152): every status field, and the residual, always present (R160). -/
def decodePanelStatus (p : Payload) : Fields × Option Payload :=
  (.panelStatus
    { mode := modeCode p
      resistor := resistorActive p
      running := running p
      settingsChanged := settingsChanged p
      roomTempHalf := roomTempHalf p
      plasma := plasma p
      fan := fanCode p
      setTemp := setTemp p
      swivel := swivel p
      swirl := swirl p },
    some (statusResidual p))

end Sys2Proof.Machine
end

