-- ==== Sys2Proof/Machine/UnitDecoder.lean ====
section
/-! DEFINITION. The Field Decoder, Unit variant (43_unit_decoder.md). -/

namespace Sys2Proof.Machine

/-- `decode_unit` (R140): the room temperature unless the no-reading flag is set, and the residual, always present. -/
def decodeUnit (p : Payload) : Fields × Option Payload :=
  let present := !noReading p.p1
  (.unit (if present then some (roomTempHalf p) else none), some (unitResidual p present))

end Sys2Proof.Machine
end

