-- ==== Sys2Proof/Machine/Emitter.lean ====
section
/-! DEFINITION. The Packet Emitter and the meanings of the four packet classes (45_packet_emitter.md).

A packet class runs inside the DATA step that receives the sixth byte (R180).  Its meaning is what that step does once the
packet is complete: consume the buffer, drive one record, advance the anchor. -/

namespace Sys2Proof.Machine

/-- The valid record of a packet, from its source and what its field decoder gave (R182). -/
def validRecord (b : Packet) (startTime endTime : Nat) (source : Source) (decoded : Fields × Option Payload) :
    Record :=
  .validPacket startTime endTime b.payload b.b5 source decoded.1 decoded.2

/-- The record of a packet of each class (R180, R181, R182). -/
def classRecord (c : PacketClass) (b : Packet) (startTime endTime : Nat) : Record :=
  match c with
  | .invalidChecksum => .invalidChecksum startTime endTime b
  | .unitResponse => validRecord b startTime endTime .unit (decodeUnit b.payload)
  | .panelFeatures => validRecord b startTime endTime .panel (decodePanelFeatures b.payload)
  | .panelStatus => validRecord b startTime endTime .panel (decodePanelStatus b.payload)

/-- INVALID_CHECKSUM (R181): the packet's six bytes and times, and nothing decoded (R123). -/
def execInvalidChecksum (b : Packet) (startTime endTime : Nat) (s : State) :
    Host.Outcome State Fault Refusal :=
  .next (s.completePacket (classRecord .invalidChecksum b startTime endTime) endTime)

/-- UNIT_RESPONSE (R140, R182). -/
def execUnitResponse (b : Packet) (startTime endTime : Nat) (s : State) :
    Host.Outcome State Fault Refusal :=
  .next (s.completePacket (classRecord .unitResponse b startTime endTime) endTime)

/-- PANEL_FEATURES (R151, R182). -/
def execPanelFeatures (b : Packet) (startTime endTime : Nat) (s : State) :
    Host.Outcome State Fault Refusal :=
  .next (s.completePacket (classRecord .panelFeatures b startTime endTime) endTime)

/-- PANEL_STATUS (R152, R182). -/
def execPanelStatus (b : Packet) (startTime endTime : Nat) (s : State) :
    Host.Outcome State Fault Refusal :=
  .next (s.completePacket (classRecord .panelStatus b startTime endTime) endTime)

/-- `emit_packet` (R180): the class is decided against the anchor as it stands before the step, and the class's meaning
runs, which then moves the anchor (70_reset_and_hazards.md R237). -/
def emitPacket (p : Config.Params) (b : Packet) (startTime endTime : Nat) (s : State) :
    Host.Outcome State Fault Refusal :=
  match packetClass p s.anchor b startTime with
  | .invalidChecksum => execInvalidChecksum b startTime endTime s
  | .unitResponse => execUnitResponse b startTime endTime s
  | .panelFeatures => execPanelFeatures b startTime endTime s
  | .panelStatus => execPanelStatus b startTime endTime s

end Sys2Proof.Machine
end

