-- ==== Sys2Proof/Machine/FrameAggregator.lean ====
section
/-! DEFINITION. The Frame Aggregator: the meanings of the four input commands (40_frame_aggregator.md). -/

namespace Sys2Proof.Machine

/-- IDLE (R100): no state element changes, no record. -/
def execIdle (s : State) : Host.Outcome State Fault Refusal := .next s.driveNothing

/-- OTHER (R101): ignored entirely, no record. -/
def execOther (s : State) : Host.Outcome State Fault Refusal := .next s.driveNothing

/-- SESSION_RESET (R104): buffer empty, anchor absent, no record for a discarded partial packet. -/
def execSessionReset (s : State) : Host.Outcome State Fault Refusal := .next s.clearSession

/-- DATA on an instance with parameters `p` (R102): the gap test, then the append, then for a sixth byte the emission. -/
def execDataAt (p : Config.Params) (value : Byte) (inStart inEnd : Nat) (s : State) :
    Host.Outcome State Fault Refusal :=
  match (s.buffer.afterGapTest p inStart).append value inStart inEnd with
  | .held k => .next (s.hold k)
  | .complete b startTime endTime => emitPacket p b startTime endTime s

/-- DATA (R102) on the instance the model runs. -/
def execData (value : Byte) (inStart inEnd : Nat) (s : State) : Host.Outcome State Fault Refusal :=
  execDataAt Config.params value inStart inEnd s

end Sys2Proof.Machine
end

