-- ==== Sys2Proof/Machine/Dispatch.lean ====
section
/-! DEFINITION. One arm per instruction, each one direct call of its meaning. -/

namespace Sys2Proof.Machine

def exec (i : Instr) (s : State) : Host.Outcome State Fault Refusal :=
  match i with
  -- the input commands (40_frame_aggregator.md)
  | .idle => Sys2Proof.Machine.execIdle s
  | .data value inStart inEnd => Sys2Proof.Machine.execData value inStart inEnd s
  | .other => Sys2Proof.Machine.execOther s
  | .sessionReset => Sys2Proof.Machine.execSessionReset s
  -- the packet classes (45_packet_emitter.md)
  | .invalidChecksum b startTime endTime => Sys2Proof.Machine.execInvalidChecksum b startTime endTime s
  | .unitResponse b startTime endTime => Sys2Proof.Machine.execUnitResponse b startTime endTime s
  | .panelFeatures b startTime endTime => Sys2Proof.Machine.execPanelFeatures b startTime endTime s
  | .panelStatus b startTime endTime => Sys2Proof.Machine.execPanelStatus b startTime endTime s

end Sys2Proof.Machine
end

