-- ==== Sys2Proof/Machine/Fetch.lean ====
section
/-! DEFINITION. The command port: one input command per step, taken from the front of the input stream (30_encoding.md R60,
20_memory.md R50), and the placing of a table word there. -/

namespace Sys2Proof.Machine

/-- What the command port gives a step. -/
inductive Fetched where
  /-- The command to run, and the state with its frame taken off the stream. -/
  | command (i : Instr) (s : State)
  /-- A frame that no bus can carry. -/
  | rejected (r : Reject)
  deriving DecidableEq, Repr

/-- Take and decode the next frame on an instance with parameters `p`.  With nothing at the port, no frame arrives this
step, which is IDLE (R61, R212; log entry 6). -/
def fetchAt (p : Config.Params) (s : State) : Fetched :=
  match s.input with
  | [] => .command .idle s
  | f :: rest =>
    match decodeFrameAt p f with
    | .ok i => .command i { s with input := rest }
    | .error r => .rejected r

/-- The refusal of a rejected frame. -/
def refusalOf (r : Reject) : Refusal :=
  match r with
  | .timestampOutOfRange => .timestampOutOfRange

/-- `s` with one more frame at the front of its input stream. -/
def State.pushFrame (s : State) (f : Frame) : State := { s with input := f :: s.input }

/-- `s` with a completed packet about to happen: the first five bytes buffered and the sixth at the port, all at time 0. -/
def State.pushPacket (s : State) (b : Packet) : State :=
  { s with buffer := .fill5 b.b0 b.b1 b.b2 b.b3 b.b4 0 0 }.pushFrame (commandFrame b.b5 1 0 0)

/-- Place a table word of `nbits` bits where the next step fetches it: a command word at the command port, a packet word
as the buffer and the sixth byte (log entry 7).  The side buses are 0. -/
def placeWord (s : State) (nbits w : Nat) : State :=
  if nbits ≤ commandBits then s.pushFrame ⟨BitVec.ofNat 10 w, 0, 0⟩
  else s.pushPacket (Packet.ofWord (BitVec.ofNat 48 w))

end Sys2Proof.Machine
end

