-- ==== Sys2Proof/Machine/Step.lean ====
section
/-! DEFINITION. One step: one input command, atomic (20_memory.md R47). -/

namespace Sys2Proof.Machine

/-- One step of the instance the model runs: take the next command and execute it. -/
def step (s : State) : Host.Outcome State Fault Refusal :=
  match fetchAt Config.params s with
  | .command i s' => exec i s'
  | .rejected r => .refused (refusalOf r)

/-- `exec` on an instance with any parameters `p`.  Only DATA reads a parameter (R103, R131). -/
def execAt (p : Config.Params) (i : Instr) (s : State) : Host.Outcome State Fault Refusal :=
  match i with
  | .idle => exec .idle s
  | .data value inStart inEnd => execDataAt p value inStart inEnd s
  | .other => exec .other s
  | .sessionReset => exec .sessionReset s
  | .invalidChecksum b startTime endTime => exec (.invalidChecksum b startTime endTime) s
  | .unitResponse b startTime endTime => exec (.unitResponse b startTime endTime) s
  | .panelFeatures b startTime endTime => exec (.panelFeatures b startTime endTime) s
  | .panelStatus b startTime endTime => exec (.panelStatus b startTime endTime) s

/-- One step of an instance with any parameters `p` (10_state.md R30): `step` is `stepAt Config.params`
(`Laws.step_eq_stepAt`), and `stepAt` runs where the parameters are given numbers. -/
def stepAt (p : Config.Params) (s : State) : Host.Outcome State Fault Refusal :=
  match fetchAt p s with
  | .command i s' => execAt p i s'
  | .rejected r => .refused (refusalOf r)

/-- `s` with the table word `w` of `nbits` bits where the next step runs it. -/
def State.withFetchWord (s : State) (nbits w : Nat) : State := placeWord s nbits w

end Sys2Proof.Machine
end

