-- ==== Sys2Proof/Machine/Errors.lean ====
section
/-! DEFINITION. The three error classes and what raises each (60_exceptions.md R201).  They are names of the spec, not outputs
(92_eei_decisions.md D27): nothing in the machine reads them. -/

namespace Sys2Proof.Machine

/-- The error classes (R201). -/
inductive ErrorClass where
  /-- `E_CHECKSUM`: checksum mismatch. -/
  | checksum
  /-- `E_FIELD_CODE`: unrecognised field-coded value. -/
  | fieldCode
  /-- `E_PARTIAL`: truncated or partial packet. -/
  | partialPacket
  deriving DecidableEq, Repr

/-- What a completed packet of a class raises (R201, R205): a status packet with an unrecognised code, `E_FIELD_CODE`. -/
def classErrors (c : PacketClass) (b : Packet) : List ErrorClass :=
  match c with
  | .invalidChecksum => [.checksum]
  | .unitResponse => []
  | .panelFeatures => []
  | .panelStatus =>
    if modeKnown (modeCode b.payload) && fanKnown (fanCode b.payload) then [] else [.fieldCode]

/-- What an instruction raises in a state, on an instance with parameters `p` (R201). -/
def errorsRaisedAt (p : Config.Params) (i : Instr) (s : State) : List ErrorClass :=
  match i with
  | .idle => []
  | .data value inStart inEnd =>
    (if s.buffer.discards p inStart then [.partialPacket] else []) ++
      (match (s.buffer.afterGapTest p inStart).append value inStart inEnd with
      | .held _ => []
      | .complete b startTime _ => classErrors (packetClass p s.anchor b startTime) b)
  | .other => []
  | .sessionReset => if s.buffer = .empty then [] else [.partialPacket]
  | .invalidChecksum b _ _ => classErrors .invalidChecksum b
  | .unitResponse b _ _ => classErrors .unitResponse b
  | .panelFeatures b _ _ => classErrors .panelFeatures b
  | .panelStatus b _ _ => classErrors .panelStatus b

/-- `errorsRaisedAt` on the instance the model runs. -/
def errorsRaised (i : Instr) (s : State) : List ErrorClass := errorsRaisedAt Config.params i s

end Sys2Proof.Machine
end

