-- ==== Sys2Proof/Machine/Reference.lean ====
section
/-! DEFINITION. Two other views of the block that the spec gives: the full list of byte events (10_state.md R21) and the
register elements of R20 under the pseudocode of R102 and R180.  The machine is `exec` and `step`; these views exist so that
statements can say that it behaves as they do. -/

namespace Sys2Proof.Machine

/-! ## The event view: LG's `buffer` and `last_end` (R20, R21) -/

/-- A byte event (R16). -/
structure ByteEvent where
  value : Byte
  startTime : Nat
  endTime : Nat
  deriving DecidableEq, Repr

/-- LG's state: an ordered sequence of byte events, and an optional timestamp (R20). -/
structure EventBlock where
  buffer : List ByteEvent
  lastEnd : Option Nat
  deriving DecidableEq, Repr

/-- The partial packet that a list of at most five events stands for; a longer list stands for none. -/
def bufferOf (l : List ByteEvent) : Option Buffer :=
  match l with
  | [] => some .empty
  | [e0] => some (.fill1 e0.value e0.startTime e0.endTime)
  | [e0, e1] => some (.fill2 e0.value e1.value e0.startTime e1.endTime)
  | [e0, e1, e2] => some (.fill3 e0.value e1.value e2.value e0.startTime e2.endTime)
  | [e0, e1, e2, e3] => some (.fill4 e0.value e1.value e2.value e3.value e0.startTime e3.endTime)
  | [e0, e1, e2, e3, e4] =>
    some (.fill5 e0.value e1.value e2.value e3.value e4.value e0.startTime e4.endTime)
  | _ => none

/-- The gap test over the event list: against the last buffered event's end (R103). -/
def EventBlock.discards (p : Config.Params) (l : EventBlock) (e : ByteEvent) : Bool :=
  match l.buffer.getLast? with
  | none => false
  | some last => gapExceeded p last.endTime e.startTime

/-- LG §4.1 over the event list (R102): the gap test, the append, and at six events the record and the new anchor. -/
def EventBlock.ingest (p : Config.Params) (l : EventBlock) (e : ByteEvent) : EventBlock × Option Record :=
  match (if l.discards p e then [] else l.buffer) ++ [e] with
  | [e0, e1, e2, e3, e4, e5] =>
    let b : Packet := ⟨e0.value, e1.value, e2.value, e3.value, e4.value, e5.value⟩
    (⟨[], some e5.endTime⟩,
      some (classRecord (packetClass p l.lastEnd b e0.startTime) b e0.startTime e5.endTime))
  | events => (⟨events, l.lastEnd⟩, none)

/-- The event view and a state stand for the same block. -/
def EventBlock.shows (l : EventBlock) (s : State) : Prop :=
  bufferOf l.buffer = some s.buffer ∧ l.lastEnd = s.anchor

/-- The bundle of a step that emits `r`, or nothing (R32). -/
def outputOf (r : Option Record) : Bundle :=
  match r with
  | none => .noRecord
  | some r => r.bundle

/-! ## The register view: the elements of R20, each holding a value at all times -/

/-- The state elements of R20 as registers.  An element that R34 calls unspecified holds some value here. -/
structure RegisterBlock where
  cnt : Fin 6
  buf : Vector Byte 5
  firstStart : Nat
  prevEnd : Nat
  anchorValid : Bool
  lastEnd : Nat
  deriving DecidableEq, Repr

/-- LG's `last_end` in the registers: absent when `anchor_valid = 0` (R20). -/
def RegisterBlock.anchor (r : RegisterBlock) : Option Nat :=
  if r.anchorValid then some r.lastEnd else none

/-- The partial packet in the registers (R20): `buf[i]` for `i < cnt`, and the two times when `cnt > 0`. -/
def RegisterBlock.buffer (r : RegisterBlock) : Buffer :=
  match r.cnt.val with
  | 0 => .empty
  | 1 => .fill1 r.buf[0] r.firstStart r.prevEnd
  | 2 => .fill2 r.buf[0] r.buf[1] r.firstStart r.prevEnd
  | 3 => .fill3 r.buf[0] r.buf[1] r.buf[2] r.firstStart r.prevEnd
  | 4 => .fill4 r.buf[0] r.buf[1] r.buf[2] r.buf[3] r.firstStart r.prevEnd
  | _ => .fill5 r.buf[0] r.buf[1] r.buf[2] r.buf[3] r.buf[4] r.firstStart r.prevEnd

/-- `emit_packet` over the registers (R180): the anchor is read before it is written. -/
def RegisterBlock.emitPacket (p : Config.Params) (r : RegisterBlock) (b : Packet) (startTime endTime : Nat) :
    RegisterBlock × Bundle :=
  ({ r with lastEnd := endTime, anchorValid := true },
    (classRecord (packetClass p r.anchor b startTime) b startTime endTime).bundle)

/-- The pseudocode of R102 over the registers, with the hardware form of the gap test (R103). -/
def RegisterBlock.dataStep (p : Config.Params) (r : RegisterBlock) (value : Byte) (inStart inEnd : Nat) :
    RegisterBlock × Bundle :=
  let k := if 0 < r.cnt.val ∧ inStart > r.prevEnd + p.gapMax then 0 else r.cnt.val
  let r := if k = 0 then { r with firstStart := inStart } else r
  if h : k < 5 then
    ({ r with buf := r.buf.set k value, prevEnd := inEnd, cnt := ⟨k + 1, by omega⟩ }, .noRecord)
  else
    { r with cnt := 0 }.emitPacket p ⟨r.buf[0], r.buf[1], r.buf[2], r.buf[3], r.buf[4], value⟩ r.firstStart inEnd

/-- The pseudocode of R104 over the registers: only `cnt` and `anchor_valid` are written. -/
def RegisterBlock.resetStep (r : RegisterBlock) : RegisterBlock × Bundle :=
  ({ r with cnt := 0, anchorValid := false }, .noRecord)

/-- The register view and a state stand for the same block, whatever the unspecified registers hold. -/
def RegisterBlock.shows (r : RegisterBlock) (s : State) : Prop :=
  r.buffer = s.buffer ∧ r.anchor = s.anchor

end Sys2Proof.Machine
end

