-- ==== Sys2Proof/Machine/Stream.lean ====
section
/-! DEFINITION. The stream notation's commands as frames (30_encoding.md R74, R75). -/

namespace Sys2Proof.Machine

/-- `DATA v @ s..e` (R74). -/
def dataFrame (value : Byte) (inStart inEnd : Nat) : Frame := commandFrame value 1 inStart inEnd

/-- `PKT t w : b0 … b5`: six adjacent DATA commands, byte `i` from `t + i*w` to `t + (i+1)*w` (R75). -/
def pkt (t w : Nat) (b : Packet) : List Frame :=
  [dataFrame b.b0 t (t + w), dataFrame b.b1 (t + w) (t + 2 * w), dataFrame b.b2 (t + 2 * w) (t + 3 * w),
    dataFrame b.b3 (t + 3 * w) (t + 4 * w), dataFrame b.b4 (t + 4 * w) (t + 5 * w),
    dataFrame b.b5 (t + 5 * w) (t + 6 * w)]

/-- `PKTC t w : b0 … b4`: `PKT` with the payload's checksum as trailer (R75). -/
def pktc (t w : Nat) (p : Payload) : List Frame := pkt t w (Payload.packet p (checksum p))

/-- What the upstream delivers, as the integrator sees it (70_reset_and_hazards.md R233): a frame tagged byte-data, with or
without a line-level error annotation, a frame of any other tag, or the session being re-armed. -/
inductive UpstreamEvent where
  | byteData (value : Byte) (startTime endTime : Nat) (annotated : Bool)
  | otherTag (startTime endTime : Nat)
  | rearm
  deriving DecidableEq, Repr

/-- The integrator's mapping of an upstream event to one command (R233, 92_eei_decisions.md D16): byte-data is DATA
whatever annotation it carries, every other frame is OTHER. -/
def UpstreamEvent.frame (u : UpstreamEvent) : Frame :=
  match u with
  | .byteData value startTime endTime _ => dataFrame value startTime endTime
  | .otherTag startTime endTime => commandFrame 0 2 startTime endTime
  | .rearm => commandFrame 0 3 0 0

end Sys2Proof.Machine
end

