-- ==== Sys2Proof/Safety.lean ====
section
/-! DEFINITION. What a safe run is, and the invariant of the block, in the terms the statements use. -/

namespace Sys2Proof.Machine

/-! ## Safe steps -/

/-- The outcome is a next state: the block goes on (60_exceptions.md R200). -/
def Completes (o : Host.Outcome State Fault Refusal) : Prop := ∃ t, o = .next t

/-- Both timestamp buses of the frame can carry it on an instance with parameters `p` (R60, I4). -/
def deliverableAt (p : Config.Params) (f : Frame) : Bool := p.fits f.inStart && p.fits f.inEnd

/-- Every frame still to arrive can be carried by the buses of the instance the model runs. -/
def State.streamDeliverable (s : State) : Prop := ∀ f ∈ s.input, deliverableAt Config.params f = true

/-- The machine at any parameters `p`, in the form the host runs: `coreAt Config.params` steps as `Sys2Proof.core` does
(`Laws.step_eq_stepAt`). -/
def coreAt (p : Config.Params) : Host.Core where
  State := State
  Fault := Fault
  Refusal := Refusal
  step := stepAt p
  reset := .reset

/-- The gap condition of the transition table (R103, R107), said over the state's elements: `cnt > 0` (so that `prev_end`
has a value) and `in_start - prev_end > GAP_MAX` in exact integers. -/
def State.gapFiresAt (p : Config.Params) (s : State) (inStart : Nat) : Prop :=
  ∃ prevEnd, s.prevEnd = some prevEnd ∧ (inStart : Int) - (prevEnd : Int) > (p.gapMax : Int)

/-- `gapFiresAt` on the instance the model runs. -/
def State.gapFires (s : State) (inStart : Nat) : Prop := s.gapFiresAt Config.params inStart

/-- The bytes of a packet in arrival order (R42). -/
def packetBytes (b : Packet) : List Byte := [b.b0, b.b1, b.b2, b.b3, b.b4, b.b5]

/-- The bytes of a payload in arrival order (R42). -/
def payloadBytes (p : Payload) : List Byte := [p.p0, p.p1, p.p2, p.p3, p.p4]

/-! ## Legal bundles: the columns of 45_packet_emitter.md R183

Each column says which fields carry a value; "driven 0" is written as equality with the bundle that has only those fields.
The conditions after it tie the record to its packet (R121, R131, R140, R151, R152). -/

/-- The `InvalidChecksum` column. -/
def Bundle.legalInvalid (o : Bundle) : Prop :=
  o = { Bundle.noRecord with
        valid := true, startTime := o.startTime, endTime := o.endTime, bytes := o.bytes } ∧
  validate o.bytes = false

/-- The "Valid, Unit" column. -/
def Bundle.legalUnit (o : Bundle) : Prop :=
  o = { Bundle.noRecord with
        valid := true, kind := true, startTime := o.startTime, endTime := o.endTime, bytes := o.bytes
        checksum := o.bytes.b5, source := true, tempPresent := o.tempPresent
        roomTempHalf := if o.tempPresent then o.roomTempHalf else 0, unkPresent := true, unk := o.unk } ∧
  validate o.bytes = true ∧ o.tempPresent = !noReading o.bytes.b1

/-- The "Valid, Panel features" column. -/
def Bundle.legalFeatures (o : Bundle) : Prop :=
  o = { Bundle.noRecord with
        valid := true, kind := true, startTime := o.startTime, endTime := o.endTime, bytes := o.bytes
        checksum := o.bytes.b5, features := true
        unkPresent := o.unkPresent, unk := if o.unkPresent then o.unk else zeroPayload } ∧
  validate o.bytes = true ∧ featuresSelected o.bytes.b0 = true ∧
  (o.unkPresent = true ↔ ¬(o.bytes.b1 = 0 ∧ o.bytes.b2 = 0 ∧ o.bytes.b3 = 0))

/-- The "Valid, Panel status" column. -/
def Bundle.legalStatus (o : Bundle) : Prop :=
  o = { o with
        valid := true, kind := true, checksum := o.bytes.b5, source := false, features := false
        tempPresent := true, unkPresent := true
        modeKnown := Machine.modeKnown o.modeCode, fanKnown := Machine.fanKnown o.fanCode } ∧
  validate o.bytes = true ∧ featuresSelected o.bytes.b0 = false ∧
  20 ≤ o.roomTempHalf.toNat ∧ o.roomTempHalf.toNat ≤ 275 ∧ 16 ≤ o.setTemp.toNat

/-- The bundle is one that R183 allows: no record, or one of the four columns. -/
def Bundle.legal (o : Bundle) : Prop :=
  o = .noRecord ∨ o.legalInvalid ∨ o.legalUnit ∨ o.legalFeatures ∨ o.legalStatus

/-! ## The invariant -/

/-- A timestamp element, where it has a value, fits its `TS_W` bits (R20). -/
def optionFits (p : Config.Params) (t : Option Nat) : Bool :=
  match t with
  | none => true
  | some t => p.fits t

/-- The invariant: every timestamp the block holds or drives fits `TS_W` bits (R20, R31), and the bundle is one that R183
allows.  That `cnt` is 0 to 5 (R22) holds by the type of `Buffer.cnt`. -/
def State.InvAt (p : Config.Params) (s : State) : Prop :=
  optionFits p s.firstStart = true ∧ optionFits p s.prevEnd = true ∧ optionFits p s.anchor = true ∧
  p.fits s.out.startTime = true ∧ p.fits s.out.endTime = true ∧ s.out.legal

/-- The invariant on the instance the model runs. -/
def State.Inv (s : State) : Prop := s.InvAt Config.params

/-! ## Shape: what framing reads (20_memory.md R49) -/

/-- Two states have the same framing: the same fill level, the same times, the same anchor, and `out_valid` alike.
Nothing is said of the bytes. -/
def State.sameFraming (s t : State) : Prop :=
  s.cnt = t.cnt ∧ s.firstStart = t.firstStart ∧ s.prevEnd = t.prevEnd ∧ s.anchor = t.anchor ∧
  s.out.valid = t.out.valid ∧ s.out.startTime = t.out.startTime ∧ s.out.endTime = t.out.endTime

/-- Two frames are alike but for their value bits. -/
def Frame.sameButValue (f g : Frame) : Prop := f.cmd = g.cmd ∧ f.inStart = g.inStart ∧ f.inEnd = g.inEnd

end Sys2Proof.Machine
end

