-- ==== Sys2Proof/Certificates/Slice0/Obligations.lean ====
section
/-! DEFINITION. The statements for the provers.  They quantify over the opaque parameters of `Config.params`, so each holds for
every legal `TS_W`, `TICK_HZ` and `GAP_MAX`; where a statement names a parameter set `p`, it holds for every `p`. -/

open Sys2Proof Sys2Proof.Machine

/-! ## The encodings -/

/-- Words written out from 30_encoding.md R60, R63 and 95_test_vectors.md decode to their instructions: `[0x041; 0; 0]` is
DATA 0x10, and the packets of W3, V-PF-1 and W1, and W2 against an anchor that its start equals or precedes. -/
def Obligations.SampleWordsDecode : Prop :=
  decodeFrame ⟨0x000, 7, 9⟩ = .ok .idle ∧
  decodeFrame ⟨0x041, 0, 0⟩ = .ok (.data 0x10 0 0) ∧
  decodeFrame ⟨0x002, 7, 9⟩ = .ok .other ∧
  decodeFrame ⟨0x003, 7, 9⟩ = .ok .sessionReset ∧
  decode none (.packet 0x090000252810 0 0) = .ok (.invalidChecksum ⟨0x10, 0x28, 0x25, 0x00, 0x00, 0x09⟩ 0 0) ∧
  decode none (.packet 0xC50000000090 0 0) = .ok (.panelFeatures ⟨0x90, 0x00, 0x00, 0x00, 0x00, 0xC5⟩ 0 0) ∧
  decode none (.packet 0x080000252810 0 0) = .ok (.panelStatus ⟨0x10, 0x28, 0x25, 0x00, 0x00, 0x08⟩ 0 0) ∧
  decode (some 60) (.packet 0x8700000028AA 0 0) = .ok (.unitResponse ⟨0xAA, 0x28, 0x00, 0x00, 0x00, 0x87⟩ 0 0)

/-- R60: one command arrives per step; the control word has `cmd` in bits 1..0 and `value` in bits 9..2, so DATA with value
`v` is `(v << 2) | 0b01`; and DATA alone reads the value and the two `TS_W`-bit buses. -/
def Obligations.CommandWordLayout : Prop :=
  (∀ f : Frame, f.cmd.toNat = f.word.toNat % 4 ∧ f.value.toNat = f.word.toNat / 4) ∧
  (∀ (v : Byte) (a b : Nat), encode (.data v a b) = .command ⟨BitVec.ofNat 10 (v.toNat * 4 + 1), a, b⟩) ∧
  (∀ (f : Frame) (v : Byte) (a b : Nat), decodeFrame f = .ok (.data v a b) ↔
    f.word.toNat % 4 = 1 ∧ v.toNat = f.word.toNat / 4 ∧ a = f.inStart ∧ b = f.inEnd ∧
      a < 2 ^ Config.params.tsW ∧ b < 2 ^ Config.params.tsW) ∧
  (∀ (s : State) (f : Frame) (rest : List Frame), s.input = f :: rest → deliverableAt Config.params f = true →
    ∃ t, step s = .next t ∧ t.input = rest)

/-- R63: bytes 0 to 4 are the payload and byte 5 the trailer; byte `i` of a packet is bits `8i+7 .. 8i` of its word. -/
def Obligations.PacketWordLayout : Prop :=
  ∀ b : Packet,
    payloadBytes b.payload ++ [b.b5] = packetBytes b ∧
    b.toWord.toNat =
      b.b0.toNat + b.b1.toNat * 2 ^ 8 + b.b2.toNat * 2 ^ 16 + b.b3.toNat * 2 ^ 24 + b.b4.toNat * 2 ^ 32 +
        b.b5.toNat * 2 ^ 40 ∧
    Packet.ofWord b.toWord = b

/-- Decoding the encoding of a well-formed instruction gives it back: for every command with every operand, and for every
packet class against every anchor that gives the class. -/
def Obligations.DecodeOfEncode : Prop :=
  ∀ (anchor : Option Nat) (i : Instr),
    wellFormed i = true → agreesWithAnchor anchor i = true → decode anchor (encode i) = .ok i

/-- What the decoder accepts is well formed and agrees with the anchor, and encodes back: to the same packet, to the same
DATA frame, or for a command that ignores its operands to a frame with the same command code. -/
def Obligations.EncodeOfDecode : Prop :=
  ∀ (anchor : Option Nat) (e : Encoded) (i : Instr), decode anchor e = .ok i →
    wellFormed i = true ∧ agreesWithAnchor anchor i = true ∧
    (∀ w a b, e = .packet w a b → encode i = e) ∧
    (∀ f, e = .command f → ∃ g, encode i = .command g ∧ g.cmd = f.cmd ∧ (f.cmd = 1 → g = f))

/-- R61: the four command codes, what each runs, and that IDLE, OTHER and SESSION_RESET ignore `value` and both buses. -/
def Obligations.CommandCodesSelectTheCommand : Prop :=
  ∀ (s : State) (f : Frame) (rest : List Frame), s.input = f :: rest →
    (f.cmd = 0 → step s = exec .idle { s with input := rest }) ∧
    (f.cmd = 1 → f.inStart < 2 ^ Config.params.tsW → f.inEnd < 2 ^ Config.params.tsW →
      step s = exec (.data f.value f.inStart f.inEnd) { s with input := rest }) ∧
    (f.cmd = 2 → step s = exec .other { s with input := rest }) ∧
    (f.cmd = 3 → step s = exec .sessionReset { s with input := rest }) ∧
    (∀ g : Frame, f.cmd = g.cmd → f.cmd ≠ 1 → step { s with input := g :: rest } = step s)

/-- R73: every 10-bit word with any timestamps the buses can carry is a legal command, whatever the state; the value bits
and timestamps that a command ignores do not matter. -/
def Obligations.EveryWordIsALegalCommand : Prop :=
  ∀ (s : State) (w : BitVec 10) (a b : Nat) (rest : List Frame),
    a < 2 ^ Config.params.tsW → b < 2 ^ Config.params.tsW →
    (∃ t, step { s with input := ⟨w, a, b⟩ :: rest } = .next t ∧ t.input = rest) ∧
    (∀ (w' : BitVec 10) (a' b' : Nat), w.toNat % 4 = w'.toNat % 4 → w.toNat % 4 ≠ 1 →
      step { s with input := ⟨w', a', b'⟩ :: rest } = step { s with input := ⟨w, a, b⟩ :: rest })

/-- R72: a completed packet is classified in this order and the first match wins. -/
def Obligations.PacketClassDecodeOrder : Prop :=
  ∀ (anchor : Option Nat) (b : Packet) (a e : Nat),
    (decodePacket anchor b a e = .invalidChecksum b a e ↔ b.b5 ≠ checksum b.payload) ∧
    (decodePacket anchor b a e = .unitResponse b a e ↔
      b.b5 = checksum b.payload ∧ classify Config.params anchor a = .unit) ∧
    (decodePacket anchor b a e = .panelFeatures b a e ↔
      b.b5 = checksum b.payload ∧ classify Config.params anchor a = .panel ∧ b.b0 &&& 0x90 = 0x90) ∧
    (decodePacket anchor b a e = .panelStatus b a e ↔
      b.b5 = checksum b.payload ∧ classify Config.params anchor a = .panel ∧ b.b0 &&& 0x90 ≠ 0x90)

/-! ## The step -/

/-- When the frame at the command port decodes to an instruction, the step is `exec` of that instruction, with the frame
taken off the stream. -/
def Obligations.StepRunsDecodedInstruction : Prop :=
  ∀ (s : State) (f : Frame) (rest : List Frame) (i : Instr),
    s.input = f :: rest → decodeFrame f = .ok i → step s = exec i { s with input := rest }

/-- The model's reading (log entry 6) of a step with nothing at the port: no frame this step, which is IDLE. -/
def Obligations.NothingAtThePortIsIdle : Prop :=
  ∀ s : State, s.input = [] → step s = exec .idle s

/-- The one refusal (I4), and exactly when: a DATA frame with a timestamp that no `TS_W`-bit bus can carry. -/
def Obligations.RefusesOnlyTimestampsOffTheBus : Prop :=
  ∀ (s : State) (r : Refusal),
    step s = .refused r ↔
      r = .timestampOutOfRange ∧
      ∃ f rest, s.input = f :: rest ∧ f.cmd = 1 ∧
        (2 ^ Config.params.tsW ≤ f.inStart ∨ 2 ^ Config.params.tsW ≤ f.inEnd)

/-- No stream of frames stops the block: it "has no traps, no exception mechanism and no fatal state" (60_exceptions.md R200).
From any state, `k` steps over frames that the buses can carry end in a next state with the first `k` frames taken, whatever
they hold.  Where `k` is more than the frames to come, the steps left over find nothing at the port, and that they complete
too is the model's reading (log entry 6). -/
def Obligations.NeverStopsConsuming : Prop :=
  ∀ (k : Nat) (s : State), s.streamDeliverable →
    ∃ t : State, core.run k s = .next t ∧ t.input = s.input.drop k

/-! ## The commands -/

/-- R100: IDLE changes no state element and emits no record, and any number of IDLE steps before a DATA byte changes
nothing about it. -/
def Obligations.IdleChangesNothing : Prop :=
  (∀ f : Frame, f.word.toNat % 4 = 0 → decodeFrame f = .ok .idle) ∧
  (∀ s : State, exec .idle s = .next { s with out := .noRecord }) ∧
  (∀ (n : Nat) (s t : State) (v : Byte) (a b : Nat),
    s.input = List.replicate n ⟨0, 0, 0⟩ → core.run n s = .next t →
      exec (.data v a b) t = exec (.data v a b) { s with input := [] })

/-- R101: OTHER changes no state element, whatever its timestamps, and emits no record. -/
def Obligations.OtherIsIgnored : Prop :=
  (∀ f : Frame, f.word.toNat % 4 = 2 → decodeFrame f = .ok .other) ∧
  (∀ s : State, exec .other s = .next { s with out := .noRecord }) ∧
  (∀ (s t : State) (v : Byte) (a b : Nat),
    exec .other s = .next t → exec (.data v a b) t = exec (.data v a b) s)

/-- R104: SESSION_RESET empties the buffer, makes the anchor absent and emits no record; a packet that is completed while
the anchor is still absent is not Unit. -/
def Obligations.SessionResetClears : Prop :=
  (∀ f : Frame, f.word.toNat % 4 = 3 → decodeFrame f = .ok .sessionReset) ∧
  (∀ s : State, exec .sessionReset s = .next { s with buffer := .empty, anchor := none, out := .noRecord }) ∧
  (∀ (s t : State) (b : Packet) (a e : Nat), exec .sessionReset s = .next t →
    decodePacket t.anchor b a e ≠ .unitResponse b a e)

/-- R102: the pseudocode of DATA over the state's elements.  `kept` is what the gap test leaves, `first` the packet's start.
With fewer than five kept bytes the byte is appended and nothing is emitted; with five the packet's class runs. -/
def Obligations.DataFollowsThePseudocode : Prop :=
  (∀ f : Frame, f.word.toNat % 4 = 1 → deliverableAt Config.params f = true →
    decodeFrame f = .ok (.data f.value f.inStart f.inEnd)) ∧
  ∀ (v : Byte) (a b : Nat) (s : State) (kept : List Byte) (first : Option Nat),
    (∀ prevEnd, s.prevEnd = some prevEnd → prevEnd + Config.params.gapMax < a → kept = []) →
    (∀ prevEnd, s.prevEnd = some prevEnd → ¬ prevEnd + Config.params.gapMax < a → kept = s.bytes) →
    (s.prevEnd = none → kept = []) →
    first = (if kept = [] then some a else s.firstStart) →
    (kept.length < 5 →
      ∃ t, exec (.data v a b) s = .next t ∧ t.bytes = kept ++ [v] ∧ t.cnt.val = kept.length + 1 ∧
        t.firstStart = first ∧ t.prevEnd = some b ∧ t.anchor = s.anchor ∧ t.out = .noRecord ∧
        t.input = s.input) ∧
    (¬ kept.length < 5 →
      ∃ p startTime t, packetBytes p = kept ++ [v] ∧ first = some startTime ∧
        exec (.data v a b) s = exec (decodePacket s.anchor p startTime b) s ∧
        exec (.data v a b) s = .next t ∧ t.cnt = 0 ∧ t.anchor = some b ∧ t.input = s.input)

/-- R103: a DATA byte discards the buffer exactly when `cnt > 0` and `in_start - prev_end > GAP_MAX` in exact integers;
otherwise every buffered byte is kept. -/
def Obligations.GapTestIsExactAndStrict : Prop :=
  ∀ (v : Byte) (a b : Nat) (s : State),
    (∀ prevEnd, s.prevEnd = some prevEnd → (a : Int) - prevEnd > Config.params.gapMax →
      ∃ t, exec (.data v a b) s = .next t ∧ t.bytes = [v] ∧ t.firstStart = some a ∧ t.out = .noRecord) ∧
    ((∀ prevEnd, s.prevEnd = some prevEnd → (a : Int) - prevEnd ≤ Config.params.gapMax) →
      ∃ t, exec (.data v a b) s = .next t ∧
        (s.cnt.val < 5 → t.bytes = s.bytes ++ [v]) ∧
        (s.cnt.val = 5 → packetBytes t.out.bytes = s.bytes ++ [v] ∧ t.out.valid = true))

/-- A discarded partial packet leaves no trace (40_frame_aggregator.md R105).  The state after the discard is the same whatever
was discarded, and holds only the new byte, so no later record can differ.  That the step raises `E_PARTIAL` and nothing else
(60_exceptions.md R201) is said with the model's names for the error classes, which no output carries (log entry 14). -/
def Obligations.DiscardLeavesNoTrace : Prop :=
  ∀ (v : Byte) (a b : Nat) (s₁ s₂ : State),
    s₁.gapFires a → s₂.gapFires a → s₁.anchor = s₂.anchor → s₁.input = s₂.input →
    exec (.data v a b) s₁ = exec (.data v a b) s₂ ∧
    ∃ t, exec (.data v a b) s₁ = .next t ∧ t.out = .noRecord ∧ t.bytes = [v] ∧ t.anchor = s₁.anchor ∧
      errorsRaised (.data v a b) s₁ = [.partialPacket]

/-- R106: with an empty buffer the next DATA byte starts a buffer, whatever its distance in time from anything before. -/
def Obligations.EmptyBufferIsNeverGapTested : Prop :=
  ∀ (v : Byte) (a b : Nat) (s : State), s.cnt = 0 →
    ∃ t, exec (.data v a b) s = .next t ∧ t.bytes = [v] ∧ t.firstStart = some a ∧ t.prevEnd = some b ∧
      t.anchor = s.anchor ∧ t.out = .noRecord ∧ t.input = s.input

/-- The transition table of the record-assembly state machine, line by line.  The spec infers it (40_frame_aggregator.md R107,
"[derived: from rule R102, rule R103 and rule R104]"). -/
def Obligations.TransitionTable : Prop :=
  ∀ s : State,
    (∃ t, exec .idle s = .next t ∧ t.cnt = s.cnt ∧ t.out = .noRecord) ∧
    (∃ t, exec .other s = .next t ∧ t.cnt = s.cnt ∧ t.out = .noRecord) ∧
    (∃ t, exec .sessionReset s = .next t ∧ t.cnt = 0 ∧ t.anchor = none ∧ t.out = .noRecord) ∧
    (∀ (v : Byte) (a b : Nat), ∃ t, exec (.data v a b) s = .next t ∧
      (s.cnt.val = 0 → t.cnt.val = 1 ∧ t.out = .noRecord) ∧
      (1 ≤ s.cnt.val → s.cnt.val ≤ 4 → ¬ s.gapFires a → t.cnt.val = s.cnt.val + 1 ∧ t.out = .noRecord) ∧
      (1 ≤ s.cnt.val → s.gapFires a → t.cnt.val = 1 ∧ t.bytes = [v] ∧ t.out = .noRecord) ∧
      (s.cnt.val = 5 → ¬ s.gapFires a → t.cnt.val = 0 ∧ t.out.valid = true ∧ t.anchor = some b))

/-- IDLE and OTHER between two bytes move neither `prev_end` nor what the next byte does.  The spec infers it
(40_frame_aggregator.md R108, "[derived: from rule R100, rule R101 and rule R102]"). -/
def Obligations.OnlyDataMovesPrevEnd : Prop :=
  ∀ (s t : State) (i : Instr), i = .idle ∨ i = .other → exec i s = .next t →
    t.prevEnd = s.prevEnd ∧ ∀ (v : Byte) (a b : Nat), exec (.data v a b) t = exec (.data v a b) s

/-- R109, R42: six DATA commands from an empty buffer, no gap exceeding `GAP_MAX`, give no record for five steps and
then exactly the record of their bytes in arrival order, with the first byte's start and the sixth byte's end. -/
def Obligations.SixBytesGiveOneRecord : Prop :=
  ∀ (s : State) (p : Packet) (a0 e0 a1 e1 a2 e2 a3 e3 a4 e4 a5 e5 : Nat) (rest : List Frame),
    s.cnt = 0 →
    s.input = [dataFrame p.b0 a0 e0, dataFrame p.b1 a1 e1, dataFrame p.b2 a2 e2, dataFrame p.b3 a3 e3,
      dataFrame p.b4 a4 e4, dataFrame p.b5 a5 e5] ++ rest →
    (∀ f ∈ s.input.take 6, deliverableAt Config.params f = true) →
    a1 ≤ e0 + Config.params.gapMax → a2 ≤ e1 + Config.params.gapMax → a3 ≤ e2 + Config.params.gapMax →
    a4 ≤ e3 + Config.params.gapMax → a5 ≤ e4 + Config.params.gapMax →
    (∀ k, 1 ≤ k → k ≤ 5 →
      ∃ t : State, core.run k s = .next t ∧ t.cnt.val = k ∧ t.out = .noRecord ∧ t.anchor = s.anchor) ∧
    core.run 6 s = exec (decodePacket s.anchor p a0 e5) { s with input := rest } ∧
    ∃ t : State, core.run 6 s = .next t ∧ t.cnt = 0 ∧ t.anchor = some e5 ∧ t.input = rest ∧
      t.out.valid = true ∧ t.out.bytes = p ∧ t.out.startTime = a0 ∧ t.out.endTime = e5

/-- `PKT t w` run from an empty buffer is never discarded and gives a packet with start `t` and end `t + 6*w`; with the
checksum as trailer (`PKTC`) the record is a `ValidPacket`.  The spec infers that the gaps are 0 (30_encoding.md R75,
"[derived: from rule R103 of 40_frame_aggregator.md]"). -/
def Obligations.PktNotationGivesThePacket : Prop :=
  ∀ (s : State) (t w : Nat) (b : Packet) (rest : List Frame),
    s.cnt = 0 → t + 6 * w < 2 ^ Config.params.tsW →
    (s.input = pkt t w b ++ rest →
      ∃ u : State, core.run 6 s = .next u ∧ u.out.valid = true ∧ u.out.bytes = b ∧ u.out.startTime = t ∧
        u.out.endTime = t + 6 * w) ∧
    (s.input = pktc t w b.payload ++ rest →
      ∃ u : State, core.run 6 s = .next u ∧ u.out.valid = true ∧ u.out.kind = true ∧
        u.out.bytes.payload = b.payload ∧ u.out.startTime = t ∧ u.out.endTime = t + 6 * w)

/-- R184: a command's step emits a record exactly when it is a DATA command that completes six bytes. -/
def Obligations.RecordExactlyOnTheSixthByte : Prop :=
  ∀ (s t : State) (i : Instr),
    (i = .idle ∨ i = .other ∨ i = .sessionReset ∨ ∃ v a b, i = .data v a b) → exec i s = .next t →
    (t.out.valid = true ↔ ∃ v a b, i = .data v a b ∧ s.cnt.val = 5 ∧ ¬ s.gapFires a) ∧
    (t.out.valid = false → t.out = .noRecord)

/-! ## The Checksum Validator -/

/-- R120: the checksum is the sum of the five payload bytes modulo 256, XOR 0x55. -/
def Obligations.ChecksumFormula : Prop :=
  ∀ p : Payload,
    (checksum p).toNat =
      ((p.p0.toNat + p.p1.toNat + p.p2.toNat + p.p3.toNat + p.p4.toNat) % 256) ^^^ 0x55

/-- R122: the checksum depends only on the multiset of payload bytes. -/
def Obligations.ChecksumIgnoresOrder : Prop :=
  ∀ p q : Payload, (payloadBytes p).Perm (payloadBytes q) → checksum p = checksum q

/-- A packet validates exactly when its trailer is the checksum of its payload; an error confined to one byte always fails,
and adding 1 to `p[0]` while subtracting 1 from `p[1]` is not seen.  The spec infers the second part (41_checksum.md R121,
"[derived: from rule R120]"). -/
def Obligations.ValidateFindsSingleByteErrors : Prop :=
  ∀ b : Packet,
    (validate b = true ↔ b.b5 = checksum b.payload) ∧
    (validate b = true → ∀ v : Byte,
      (v ≠ b.b0 → validate { b with b0 := v } = false) ∧ (v ≠ b.b1 → validate { b with b1 := v } = false) ∧
      (v ≠ b.b2 → validate { b with b2 := v } = false) ∧ (v ≠ b.b3 → validate { b with b3 := v } = false) ∧
      (v ≠ b.b4 → validate { b with b4 := v } = false) ∧ (v ≠ b.b5 → validate { b with b5 := v } = false)) ∧
    validate { b with b0 := b.b0 + 1, b1 := b.b1 - 1 } = validate b

/-- R123: a packet that fails validation is not classified and not decoded, whatever the anchor, and the anchor still
advances. -/
def Obligations.InvalidPacketIsNotDecoded : Prop :=
  ∀ (s : State) (b : Packet) (a e : Nat), b.b5 ≠ checksum b.payload →
    exec (decodePacket s.anchor b a e) s =
      .next { s with
        buffer := .empty, anchor := some e
        out := { Bundle.noRecord with valid := true, startTime := a, endTime := e, bytes := b } }

/-! ## The Source Classifier -/

/-- R131: Panel with the anchor absent; otherwise Unit exactly when `10 * (start - last_end) < 3 * TICK_HZ`, in exact
integers. -/
def Obligations.ClassifierComparison : Prop :=
  ∀ (p : Config.Params) (a : Nat),
    classify p none a = .panel ∧
    ∀ e : Nat,
      (classify p (some e) a = .unit ↔ 10 * ((a : Int) - e) < 3 * p.tickHz) ∧
      (classify p (some e) a = .panel ↔ ¬ 10 * ((a : Int) - e) < 3 * p.tickHz)

/-- R9: the comparison in ticks is exactly `gap / TICK_HZ < 0.300 s`. -/
def Obligations.ClassifierBoundaryInSeconds : Prop :=
  ∀ (p : Config.Params) (e a : Nat),
    classify p (some e) a = .unit ↔ (((a : ℚ) - (e : ℚ)) / (p.tickHz : ℚ) < 3 / 10)

/-- R132: a gap of exactly 300 ms gives Panel and any gap strictly below it Unit; an absent anchor gives Panel; when
`TICK_HZ` is no multiple of 10 no integer gap is 300 ms, and every gap is still placed on its side; and a valid packet within
300 ms of an invalid one is Unit. -/
def Obligations.ClassifierBoundary : Prop :=
  (∀ (p : Config.Params) (a e q : Nat),
    classify p none a = .panel ∧
    (p.tickHz = 10 * q →
      ((a : Int) - e = 3 * q → classify p (some e) a = .panel) ∧
      ((a : Int) - e < 3 * q → classify p (some e) a = .unit)) ∧
    (¬ 10 ∣ p.tickHz →
      (∀ g : Int, 10 * g ≠ 3 * p.tickHz) ∧
      (classify p (some e) a = .unit ↔ (((a : ℚ) - (e : ℚ)) / (p.tickHz : ℚ) < 3 / 10)))) ∧
  (∀ (s t : State) (b₀ b : Packet) (a₀ e₀ a e : Nat),
    exec (.invalidChecksum b₀ a₀ e₀) s = .next t → b.b5 = checksum b.payload →
    10 * ((a : Int) - e₀) < 3 * Config.params.tickHz →
    decodePacket t.anchor b a e = .unitResponse b a e)

/-- A packet whose start is at or before the previous packet's end gives Unit.  The spec infers it (42_classifier.md R133,
"[derived: from rule R131]"). -/
def Obligations.NonPositiveGapIsUnit : Prop :=
  ∀ (p : Config.Params) (e a : Nat), a ≤ e → classify p (some e) a = .unit

/-- "The first valid packet of a session is always Panel" (70_reset_and_hazards.md R231), as 90_conflicts.md C1 has it: with
no packet completed before it, so with the anchor absent.  The step drives a `ValidPacket` with `out_source = 0`. -/
def Obligations.FirstValidPacketIsPanel : Prop :=
  ∀ (s t : State) (v : Byte) (a b : Nat),
    s.anchor = none → s.cnt.val = 5 → ¬ s.gapFires a → exec (.data v a b) s = .next t →
    validate t.out.bytes = true → t.out.kind = true ∧ t.out.source = false

/-- R185: after every completed packet, valid or not, the anchor is the packet's end; an invalid packet re-arms the window;
no other command sets the anchor. -/
def Obligations.AnchorAdvancesOnEveryPacket : Prop :=
  (∀ (s t : State) (c : PacketClass) (b : Packet) (a e : Nat),
    exec (classInstr c b a e) s = .next t → t.anchor = some e) ∧
  (∀ (s t : State) (v : Byte) (a b : Nat), exec (.data v a b) s = .next t →
    (s.cnt.val = 5 ∧ ¬ s.gapFires a → t.anchor = some b) ∧
    (¬ (s.cnt.val = 5 ∧ ¬ s.gapFires a) → t.anchor = s.anchor)) ∧
  (∀ (s t : State), exec .idle s = .next t ∨ exec .other s = .next t → t.anchor = s.anchor) ∧
  (∀ (s t : State) (b₀ b : Packet) (a₀ e₀ a e : Nat),
    exec (.invalidChecksum b₀ a₀ e₀) s = .next t → b.b5 = checksum b.payload →
    10 * ((a : Int) - e₀) < 3 * Config.params.tickHz →
    decodePacket t.anchor b a e = .unitResponse b a e)

/-! ## The records -/

/-- R181: the `InvalidChecksum` record, every other field 0; the buffer is consumed and the anchor moves. -/
def Obligations.InvalidChecksumRecord : Prop :=
  ∀ (s : State) (b : Packet) (a e : Nat),
    exec (.invalidChecksum b a e) s =
      .next { s with
        buffer := .empty, anchor := some e
        out := { Bundle.noRecord with
          valid := true, kind := false, startTime := a, endTime := e, bytes := b } }

/-- R140, R142: the Unit record, field by field.  The temperature is reported exactly when `p[1][7]` is 0, and the residual
byte 1 is zero exactly then. -/
def Obligations.UnitResponseRecord : Prop :=
  ∀ (s : State) (b : Packet) (a e : Nat),
    (b.b1.toNat < 128 →
      exec (.unitResponse b a e) s =
        .next { s with
          buffer := .empty, anchor := some e
          out := { Bundle.noRecord with
            valid := true, kind := true, startTime := a, endTime := e, bytes := b, checksum := b.b5
            source := true, tempPresent := true, roomTempHalf := BitVec.ofNat 9 (b.b1.toNat + 20)
            unkPresent := true, unk := ⟨b.b0, 0, b.b2, b.b3, b.b4⟩ } }) ∧
    (128 ≤ b.b1.toNat →
      exec (.unitResponse b a e) s =
        .next { s with
          buffer := .empty, anchor := some e
          out := { Bundle.noRecord with
            valid := true, kind := true, startTime := a, endTime := e, bytes := b, checksum := b.b5
            source := true, unkPresent := true, unk := ⟨b.b0, b.b1, b.b2, b.b3, b.b4⟩ } })

/-- R151: the features-inquiry record.  The residual is present exactly when one of bytes 1 to 3 is not zero, and its first
and last bytes are 0. -/
def Obligations.PanelFeaturesRecord : Prop :=
  ∀ (s : State) (b : Packet) (a e : Nat),
    (¬ (b.b1 = 0 ∧ b.b2 = 0 ∧ b.b3 = 0) →
      exec (.panelFeatures b a e) s =
        .next { s with
          buffer := .empty, anchor := some e
          out := { Bundle.noRecord with
            valid := true, kind := true, startTime := a, endTime := e, bytes := b, checksum := b.b5
            features := true, unkPresent := true, unk := ⟨0, b.b1, b.b2, b.b3, 0⟩ } }) ∧
    (b.b1 = 0 ∧ b.b2 = 0 ∧ b.b3 = 0 →
      exec (.panelFeatures b a e) s =
        .next { s with
          buffer := .empty, anchor := some e
          out := { Bundle.noRecord with
            valid := true, kind := true, startTime := a, endTime := e, bytes := b, checksum := b.b5
            features := true } })

/-- R152 to R160: the status record, each field as the number that its bits make. -/
def Obligations.PanelStatusRecord : Prop :=
  ∀ (s : State) (b : Packet) (a e : Nat),
    exec (.panelStatus b a e) s =
      .next { s with
        buffer := .empty, anchor := some e
        out :=
          { valid := true, kind := true, startTime := a, endTime := e, bytes := b, checksum := b.b5
            source := false, features := false
            tempPresent := true, roomTempHalf := BitVec.ofNat 9 (b.b1.toNat + 20)
            modeCode := BitVec.ofNat 3 (b.b0.toNat / 16)
            modeKnown := decide (b.b0.toNat / 16 % 8 ∈ [0, 1, 2, 4])
            resistor := decide (b.b0.toNat / 8 % 2 = 1)
            running := decide (b.b0.toNat / 4 % 2 = 1)
            settingsChanged := decide (b.b0.toNat % 2 = 1)
            plasma := decide (128 ≤ b.b2.toNat)
            fanCode := BitVec.ofNat 3 (b.b2.toNat / 16)
            fanKnown := decide (b.b2.toNat / 16 % 8 ∈ [0, 1, 2, 4])
            setTemp := BitVec.ofNat 5 (b.b2.toNat % 16 + 16)
            swivel := decide (b.b3.toNat / 32 % 2 = 1)
            swirl := decide (b.b4.toNat % 2 = 1)
            unkPresent := true
            unk := ⟨b.b0 &&& 0x02, 0, 0, b.b3 &&& 0xDF, b.b4 &&& 0xFE⟩ } }

/-- R141, R155: the temperature is exact: half of `out_room_temp_half` is `p[1] / 2 + 10` degrees, not truncated, in a Unit
record that reports one and in every status record. -/
def Obligations.TemperatureIsExactInHalfDegrees : Prop :=
  ∀ (s t u : State) (b : Packet) (a e : Nat),
    exec (.unitResponse b a e) s = .next t → exec (.panelStatus b a e) s = .next u →
    (t.out.tempPresent = true → (t.out.roomTempHalf.toNat : ℚ) / 2 = (b.b1.toNat : ℚ) / 2 + 10) ∧
    (t.out.tempPresent = true ↔ b.b1.toNat < 128) ∧
    u.out.tempPresent = true ∧ (u.out.roomTempHalf.toNat : ℚ) / 2 = (b.b1.toNat : ℚ) / 2 + 10

/-- R69: the assembled operands and their ranges. -/
def Obligations.AssembledOperandRanges : Prop :=
  ∀ (s t u : State) (b : Packet) (a e : Nat),
    exec (.unitResponse b a e) s = .next t → exec (.panelStatus b a e) s = .next u →
    (t.out.tempPresent = true → 20 ≤ t.out.roomTempHalf.toNat ∧ t.out.roomTempHalf.toNat ≤ 147) ∧
    20 ≤ u.out.roomTempHalf.toNat ∧ u.out.roomTempHalf.toNat ≤ 275 ∧
    16 ≤ u.out.setTemp.toNat ∧ u.out.setTemp.toNat ≤ 31 ∧
    (t.out.tempPresent = true → t.out.roomTempHalf.toNat = b.b1.toNat + 20) ∧
    u.out.roomTempHalf.toNat = b.b1.toNat + 20 ∧ u.out.setTemp.toNat = b.b2.toNat % 16 + 16 ∧
    u.out.modeCode.toNat = b.b0.toNat / 16 % 8 ∧ u.out.fanCode.toNat = b.b2.toNat / 16 % 8 ∧
    u.out.resistor = b.b0.getLsbD 3 ∧ u.out.running = b.b0.getLsbD 2 ∧ u.out.settingsChanged = b.b0.getLsbD 0 ∧
    u.out.plasma = b.b2.getLsbD 7 ∧ u.out.swivel = b.b3.getLsbD 5 ∧ u.out.swirl = b.b4.getLsbD 0

/-- R67, R68: the mode and fan-speed tables, by their masked keys; a code is known exactly when its key has a name. -/
def Obligations.ModeAndFanTables : Prop :=
  ∀ p : Payload,
    (modeOfCode (modeCode p) =
      if p.p0 &&& 0x70 = 0x00 then some .cool else if p.p0 &&& 0x70 = 0x10 then some .dH
      else if p.p0 &&& 0x70 = 0x20 then some .fan else if p.p0 &&& 0x70 = 0x40 then some .heat else none) ∧
    (fanOfCode (fanCode p) =
      if p.p2 &&& 0x70 = 0x00 then some .low else if p.p2 &&& 0x70 = 0x10 then some .medium
      else if p.p2 &&& 0x70 = 0x20 then some .high else if p.p2 &&& 0x70 = 0x40 then some .power else none) ∧
    (p.p0 &&& 0x70).toNat = (modeCode p).toNat * 16 ∧ (p.p2 &&& 0x70).toNat = (fanCode p).toNat * 16 ∧
    (modeKnown (modeCode p) = true ↔ (p.p0 &&& 0x70).toNat ∈ [0x00, 0x10, 0x20, 0x40]) ∧
    (fanKnown (fanCode p) = true ↔ (p.p2 &&& 0x70).toNat ∈ [0x00, 0x10, 0x20, 0x40])

/-- R202: an unrecognised code gives a `ValidPacket` whose other fields decode normally: two status packets that
differ only in the mode and fan codes (and their trailers) drive the same other fields, and the residual too. -/
def Obligations.UnrecognisedCodeTouchesNothingElse : Prop :=
  ∀ (s t u : State) (b c : Packet) (a e : Nat),
    b.b0 &&& 0x8F = c.b0 &&& 0x8F → b.b1 = c.b1 → b.b2 &&& 0x8F = c.b2 &&& 0x8F → b.b3 = c.b3 → b.b4 = c.b4 →
    exec (.panelStatus b a e) s = .next t → exec (.panelStatus c a e) s = .next u →
    t.out.valid = true ∧ t.out.kind = true ∧
    u.out = { t.out with
      bytes := c, checksum := c.b5
      modeCode := u.out.modeCode, modeKnown := u.out.modeKnown
      fanCode := u.out.fanCode, fanKnown := u.out.fanKnown }

/-- In the status branch bit 7 of `p[0]` is reported only through the payload bytes.  The spec infers it (44_panel_decoder.md
R161, "[derived: from rule R152]"). -/
def Obligations.StatusBitSevenIsDropped : Prop :=
  ∀ (s t u : State) (b : Packet) (w : Byte) (a e : Nat),
    exec (.panelStatus b a e) s = .next t →
    exec (.panelStatus { b with b0 := b.b0 ^^^ 0x80, b5 := w } a e) s = .next u →
    u.out = { t.out with bytes := { b with b0 := b.b0 ^^^ 0x80, b5 := w }, checksum := w }

/-- Exactly the payload bits that no field and no residual reports.  Status: `p[0][7]` and nothing else.  Features inquiry:
the bits of `p[0]` and all of `p[4]`.  Unit: none.  The spec infers it (30_encoding.md R71, "[derived: from rule R65 and
rule R66]"). -/
def Obligations.UnreportedPayloadBits : Prop :=
  (∀ p q : Payload, decodePanelStatus p = decodePanelStatus q ↔
    p.p0 &&& 0x7F = q.p0 &&& 0x7F ∧ p.p1 = q.p1 ∧ p.p2 = q.p2 ∧ p.p3 = q.p3 ∧ p.p4 = q.p4) ∧
  (∀ p q : Payload, decodePanelFeatures p = decodePanelFeatures q ↔ p.p1 = q.p1 ∧ p.p2 = q.p2 ∧ p.p3 = q.p3) ∧
  (∀ p q : Payload, decodeUnit p = decodeUnit q ↔ p = q)

/-- R187: the record is a function of the packet, its two times, the anchor and the parameters only. -/
def Obligations.RecordIsAFunctionOfThePacket : Prop :=
  ∀ (s₁ s₂ t₁ t₂ : State) (v : Byte) (a₁ a₂ e : Nat),
    s₁.bytes = s₂.bytes → s₁.firstStart = s₂.firstStart → s₁.anchor = s₂.anchor → s₁.cnt.val = 5 →
    ¬ s₁.gapFires a₁ → ¬ s₂.gapFires a₂ →
    exec (.data v a₁ e) s₁ = .next t₁ → exec (.data v a₂ e) s₂ = .next t₂ →
    t₁.out = t₂.out ∧ t₁.out.valid = true ∧ t₁.buffer = t₂.buffer ∧ t₁.anchor = t₂.anchor

/-- R33: the tagged union and the bundle are equivalent: each consistent record is read back from the bundle it drives, a
bundle with no record carries none, and each bundle that R183 allows is the one its record drives. -/
def Obligations.BundleAndRecordAreEquivalent : Prop :=
  (∀ r : Record, r.consistent = true → r.bundle.toRecord = some r) ∧
  Bundle.noRecord.toRecord = none ∧
  (∀ o : Bundle, o.legal → outputOf o.toRecord = o)

/-! ## Errors -/

/-- How each error class of 60_exceptions.md R201 is reported.  `E_CHECKSUM` is raised exactly by a DATA step that drives `InvalidChecksum`;
`E_FIELD_CODE` exactly by one that drives a `ValidPacket` status record with a known bit 0; `E_PARTIAL` alone drives
nothing. -/
def Obligations.ErrorClassesAreReportedInBand : Prop :=
  ∀ (s t : State) (v : Byte) (a b : Nat), exec (.data v a b) s = .next t →
    (ErrorClass.checksum ∈ errorsRaised (.data v a b) s ↔ t.out.valid = true ∧ t.out.kind = false) ∧
    (ErrorClass.fieldCode ∈ errorsRaised (.data v a b) s ↔
      t.out.valid = true ∧ t.out.kind = true ∧ t.out.source = false ∧ t.out.features = false ∧
        (t.out.modeKnown = false ∨ t.out.fanKnown = false)) ∧
    (ErrorClass.partialPacket ∈ errorsRaised (.data v a b) s ↔ s.gapFires a) ∧
    (ErrorClass.partialPacket ∈ errorsRaised (.data v a b) s → t.out = .noRecord) ∧
    (ErrorClass.partialPacket ∈ errorsRaised .sessionReset s ↔ s.cnt ≠ 0)

/-- R205: the fixed order of the conditions within a step. -/
def Obligations.ConditionPriority : Prop :=
  (∀ (s : State) (v : Byte) (a b : Nat), s.cnt.val = 5 → s.gapFires a →
    ∃ t, exec (.data v a b) s = .next t ∧ t.out = .noRecord ∧ t.bytes = [v]) ∧
  (∀ (anchor : Option Nat) (b : Packet) (a e : Nat), validate b = false →
    decodePacket anchor b a e = .invalidChecksum b a e) ∧
  (∀ (anchor : Option Nat) (b : Packet) (a e : Nat), validate b = true → classify Config.params anchor a = .unit →
    decodePacket anchor b a e = .unitResponse b a e) ∧
  (∀ (s t : State) (b : Packet) (a e : Nat), exec (.panelFeatures b a e) s = .next t →
    t.out.modeCode = 0 ∧ t.out.modeKnown = false ∧ t.out.fanCode = 0 ∧ t.out.fanKnown = false ∧
      errorsRaised (.panelFeatures b a e) s = []) ∧
  (∀ (s : State) (a e : Nat) (m f : Bool), ∃ b t, exec (.panelStatus b a e) s = .next t ∧
    wellFormed (.panelStatus b 0 0) = true ∧ t.out.modeKnown = m ∧ t.out.fanKnown = f)

/-! ## Framing -/

/-- "No rule looks at a byte's value to find a boundary" (20_memory.md R49, an inference of the spec's).  Two runs whose frames
differ only in their values, from states with the same framing, keep the same fill level, times, anchor and `out_valid` at
every step.  A step past the last frame is IDLE in both runs (log entry 6). -/
def Obligations.FramingIgnoresByteValues : Prop :=
  ∀ (k : Nat) (s₁ s₂ t₁ t₂ : State), s₁.sameFraming s₂ → List.Forall₂ Frame.sameButValue s₁.input s₂.input →
    core.run k s₁ = .next t₁ → core.run k s₂ = .next t₂ → t₁.sameFraming t₂

/-- Where every DATA byte starts more than `GAP_MAX` after the end of the one before it, the block emits nothing, however long
it runs.  The spec infers it (70_reset_and_hazards.md R238, "[derived: from rule R103 of 40_frame_aggregator.md]").  A step
past the last frame is IDLE (log entry 6). -/
def Obligations.TooSmallGapMaxEmitsNothing : Prop :=
  ∀ (p : Config.Params) (k : Nat) (s t : State),
    s.cnt.val ≤ 1 → (∀ f ∈ s.input, f.cmd = 1) →
    (∀ f rest, s.input = f :: rest → s.cnt.val = 1 → s.gapFiresAt p f.inStart) →
    s.input.IsChain (fun f g => f.inEnd + p.gapMax < g.inStart) →
    s.out = .noRecord → (coreAt p).run k s = .next t → t.out = .noRecord

/-- For every legal configuration a 2-second gap discards a partial packet, which is why 00_scope.md R8 bounds `GAP_MAX`
(inferred in 70_reset_and_hazards.md R238), and an illegal configuration is rejected (93_implementation_defined.md I3). -/
def Obligations.TwoSecondGapAlwaysDiscards : Prop :=
  (∀ (p : Config.Params) (s : State) (v : Byte) (a b prevEnd : Nat),
    s.prevEnd = some prevEnd → prevEnd + 2 * p.tickHz ≤ a →
    ∃ t, execAt p (.data v a b) s = .next t ∧ t.bytes = [v] ∧ t.out = .noRecord) ∧
  (∀ w hz g : Nat, Config.Params.ofNumbers w hz g = none ↔ hz = 0 ∨ 2 * hz ≤ g) ∧
  (∀ (w hz g : Nat) (p : Config.Params), Config.Params.ofNumbers w hz g = some p →
    p.tsW = w ∧ p.tickHz = hz ∧ p.gapMax = g)

/-- The integrator's mapping (70_reset_and_hazards.md R233, item 3; log entry 16): byte-data frames to DATA with their value and both timestamps, whatever annotations they
carry, and every other frame to OTHER. -/
def Obligations.UpstreamMapping : Prop :=
  ∀ (v : Byte) (a b : Nat) (annotated : Bool),
    a < 2 ^ Config.params.tsW → b < 2 ^ Config.params.tsW →
    decodeFrame (UpstreamEvent.byteData v a b annotated).frame = .ok (.data v a b) ∧
    decodeFrame (UpstreamEvent.otherTag a b).frame = .ok .other ∧
    decodeFrame UpstreamEvent.rearm.frame = .ok .sessionReset

/-! ## Reset -/

/-- R34: the state after reset.  `buf`, `first_start`, `prev_end` and `last_end` have no value. -/
def Obligations.ResetState : Prop :=
  State.reset.cnt = 0 ∧ State.reset.anchorValid = false ∧ State.reset.out = .noRecord ∧
  State.reset.bytes = [] ∧ State.reset.firstStart = none ∧ State.reset.prevEnd = none ∧ State.reset.anchor = none ∧
  ∀ s : State, ∃ t, exec .sessionReset s = .next t ∧ t.cnt = 0 ∧ t.anchorValid = false ∧ t.out = .noRecord ∧
    t.bytes = [] ∧ t.firstStart = none ∧ t.prevEnd = none ∧ t.anchor = none

/-- R230: power-on reset and SESSION_RESET leave the same state (the stream still to arrive is not the block's). -/
def Obligations.PowerOnEqualsSessionReset : Prop :=
  ∀ s : State, exec .sessionReset s = .next { State.reset with input := s.input }

/-- R232: reset is atomic with respect to the stream.  After it the whole state is the same whatever was there before, with
nothing buffered and the anchor absent, so no later command can see the state from before it.  And no command sees what comes
after it: the steps over the frames `before` leave the same state, but for the frames still to come, whichever frames follow
them, a reset among them or not. -/
def Obligations.ResetForgetsThePast : Prop :=
  (∀ s₁ s₂ t₁ t₂ : State, s₁.input = s₂.input →
    exec .sessionReset s₁ = .next t₁ → exec .sessionReset s₂ = .next t₂ →
    t₁ = t₂ ∧ t₁.bytes = [] ∧ t₁.anchor = none) ∧
  (∀ (before after₁ after₂ : List Frame) (s t : State),
    core.run before.length { s with input := before ++ after₁ } = .next t →
    core.run before.length { s with input := before ++ after₂ } = .next { t with input := after₂ })

/-! ## The other views of the block -/

/-- A block that keeps the full list of byte events and LG's optional `last_end` has the same observable behaviour:
from views that show the same block, every step gives the same output and leaves views that show the same block.  The spec
infers it (10_state.md R21, "[derived: from 40_frame_aggregator.md rule R102 and 45_packet_emitter.md rule R180]"). -/
def Obligations.EventListBlockIsEquivalent : Prop :=
  ∀ (l : EventBlock) (s : State) (v : Byte) (a b : Nat), l.shows s →
    (∃ t, exec (.data v a b) s = .next t ∧
      (l.ingest Config.params ⟨v, a, b⟩).1.shows t ∧ t.out = outputOf (l.ingest Config.params ⟨v, a, b⟩).2) ∧
    (∃ t, exec .idle s = .next t ∧ l.shows t ∧ t.out = .noRecord) ∧
    (∃ t, exec .other s = .next t ∧ l.shows t ∧ t.out = .noRecord) ∧
    (∃ t, exec .sessionReset s = .next t ∧ EventBlock.shows ⟨[], none⟩ t ∧ t.out = .noRecord)

/-- The registers of 10_state.md R20 under the pseudocode of R102 and R104 behave as the machine does, whatever the unspecified
registers hold: they are "never read while unspecified" (an inference of the spec's, R34; log entry 3). -/
def Obligations.RegisterBlockIsEquivalent : Prop :=
  ∀ (r : RegisterBlock) (s : State) (v : Byte) (a b : Nat), r.shows s →
    (∃ t, exec (.data v a b) s = .next t ∧
      (r.dataStep Config.params v a b).1.shows t ∧ t.out = (r.dataStep Config.params v a b).2) ∧
    (∃ t, exec .idle s = .next t ∧ r.shows t ∧ t.out = .noRecord) ∧
    (∃ t, exec .other s = .next t ∧ r.shows t ∧ t.out = .noRecord) ∧
    (∃ t, exec .sessionReset s = .next t ∧ r.resetStep.1.shows t ∧ t.out = r.resetStep.2)

/-! ## The invariant -/

/-- The invariant holds after reset. -/
def Obligations.ResetMeetsTheInvariant : Prop := State.reset.Inv

/-- Every step keeps the invariant: the timestamps the block holds and drives fit `TS_W` bits, and the bundle is one of the
columns of R183. -/
def Obligations.StepKeepsTheInvariant : Prop :=
  ∀ s t : State, s.Inv → step s = .next t → t.Inv
end

