-- ==== Sys2Proof/Laws/Config.lean ====
section
/-! SUPPORT. What the parameters guarantee. -/

namespace Sys2Proof.Laws

/-- The bus check is the range of R11: `0 .. 2^TS_W - 1`. -/
theorem fits_iff (p : Config.Params) (t : Nat) : p.fits t = true ↔ t < 2 ^ p.tsW := by
  rw [Config.Params.fits, beq_iff_eq]
  exact ⟨fun h => h ▸ Nat.mod_lt _ (Nat.two_pow_pos _), Nat.mod_eq_of_lt⟩

theorem fits_eq_false_iff (p : Config.Params) (t : Nat) : p.fits t = false ↔ 2 ^ p.tsW ≤ t := by
  rw [← Nat.not_lt, ← fits_iff, Bool.not_eq_true]

@[simp] theorem fits_zero (p : Config.Params) : p.fits 0 = true :=
  (fits_iff p 0).2 (Nat.two_pow_pos _)

end Sys2Proof.Laws
end

