-- ==== Sys2Proof/Laws/Decode.lean ====
section
/-! SUPPORT. What the decoders answer, said once. -/

namespace Sys2Proof.Laws

open Sys2Proof.Machine

/-- The control word as a number: `value` above, `cmd` in the two low bits (R60). -/
theorem toNat_commandWord (v : Byte) (c : BitVec 2) : (commandWord v c).toNat = v.toNat * 4 + c.toNat := by
  change (v ++ c : BitVec (8 + 2)).toNat = _
  rw [BitVec.toNat_append, Nat.shiftLeft_eq, Nat.mul_comm v.toNat, ← Nat.two_pow_add_eq_or_of_lt c.isLt]

theorem cmd_toNat (f : Frame) : f.cmd.toNat = f.word.toNat % 4 := by
  simp [Frame.cmd]

theorem value_toNat (f : Frame) : f.value.toNat = f.word.toNat / 4 := by
  have := f.word.isLt
  simp only [Frame.value, BitVec.extractLsb'_toNat, Nat.shiftRight_eq_div_pow]
  omega

@[simp] theorem cmd_commandFrame (v : Byte) (c : BitVec 2) (a b : Nat) : (commandFrame v c a b).cmd = c := by
  apply BitVec.eq_of_toNat_eq
  have := c.isLt
  rw [cmd_toNat, commandFrame, toNat_commandWord]
  omega

@[simp] theorem value_commandFrame (v : Byte) (c : BitVec 2) (a b : Nat) :
    (commandFrame v c a b).value = v := by
  apply BitVec.eq_of_toNat_eq
  have := c.isLt
  rw [value_toNat, commandFrame, toNat_commandWord]
  omega

@[simp] theorem inStart_commandFrame (v : Byte) (c : BitVec 2) (a b : Nat) :
    (commandFrame v c a b).inStart = a := rfl

@[simp] theorem inEnd_commandFrame (v : Byte) (c : BitVec 2) (a b : Nat) :
    (commandFrame v c a b).inEnd = b := rfl

/-- The four answers of the command decoder, by command code (R61). -/
theorem decodeFrameAt_cases (p : Config.Params) (f : Frame) :
    (f.cmd = 0 ∧ decodeFrameAt p f = .ok .idle) ∨
    (f.cmd = 1 ∧ p.fits f.inStart = true ∧ p.fits f.inEnd = true ∧
      decodeFrameAt p f = .ok (.data f.value f.inStart f.inEnd)) ∨
    (f.cmd = 1 ∧ ¬ (p.fits f.inStart = true ∧ p.fits f.inEnd = true) ∧
      decodeFrameAt p f = .error .timestampOutOfRange) ∨
    (f.cmd = 2 ∧ decodeFrameAt p f = .ok .other) ∨
    (f.cmd = 3 ∧ decodeFrameAt p f = .ok .sessionReset) := by
  have hc : f.cmd = 0 ∨ f.cmd = 1 ∨ f.cmd = 2 ∨ f.cmd = 3 := by
    generalize f.cmd = c
    revert c
    decide
  rcases hc with h | h | h | h
  · exact .inl ⟨h, by simp [decodeFrameAt, h]⟩
  · by_cases hf : p.fits f.inStart = true ∧ p.fits f.inEnd = true
    · exact .inr (.inl ⟨h, hf.1, hf.2, by simp [decodeFrameAt, h, hf.1, hf.2]⟩)
    · refine .inr (.inr (.inl ⟨h, hf, ?_⟩))
      simp only [decodeFrameAt, h, Bool.and_eq_true, if_neg hf]
      rfl
  · exact .inr (.inr (.inr (.inl ⟨h, by simp [decodeFrameAt, h]⟩)))
  · exact .inr (.inr (.inr (.inr ⟨h, by simp [decodeFrameAt, h]⟩)))

/-- The four answers of the packet class decoder, each with its condition (R72). -/
theorem packetClass_cases (p : Config.Params) (anchor : Option Nat) (b : Packet) (a : Nat) :
    (packetClass p anchor b a = .invalidChecksum ∧ validate b = false) ∨
    (packetClass p anchor b a = .unitResponse ∧ validate b = true ∧ classify p anchor a = .unit) ∨
    (packetClass p anchor b a = .panelFeatures ∧ validate b = true ∧ classify p anchor a = .panel ∧
      featuresSelected b.b0 = true) ∨
    (packetClass p anchor b a = .panelStatus ∧ validate b = true ∧ classify p anchor a = .panel ∧
      featuresSelected b.b0 = false) := by
  unfold packetClass
  cases hv : validate b <;> cases hc : classify p anchor a <;> cases hs : featuresSelected b.b0 <;> simp

end Sys2Proof.Laws
end

