-- ==== Sys2Proof/Laws/State.lean ====
section
/-! SUPPORT. One lemma per field per update of the state, and the derived elements of a buffer. -/

namespace Sys2Proof.Laws

open Sys2Proof.Machine

@[simp] theorem driveNothing_buffer (s : State) : s.driveNothing.buffer = s.buffer := rfl
@[simp] theorem driveNothing_anchor (s : State) : s.driveNothing.anchor = s.anchor := rfl
@[simp] theorem driveNothing_out (s : State) : s.driveNothing.out = .noRecord := rfl
@[simp] theorem driveNothing_input (s : State) : s.driveNothing.input = s.input := rfl

@[simp] theorem hold_buffer (s : State) (k : Buffer) : (s.hold k).buffer = k := rfl
@[simp] theorem hold_anchor (s : State) (k : Buffer) : (s.hold k).anchor = s.anchor := rfl
@[simp] theorem hold_out (s : State) (k : Buffer) : (s.hold k).out = .noRecord := rfl
@[simp] theorem hold_input (s : State) (k : Buffer) : (s.hold k).input = s.input := rfl

@[simp] theorem clearSession_buffer (s : State) : s.clearSession.buffer = .empty := rfl
@[simp] theorem clearSession_anchor (s : State) : s.clearSession.anchor = none := rfl
@[simp] theorem clearSession_out (s : State) : s.clearSession.out = .noRecord := rfl
@[simp] theorem clearSession_input (s : State) : s.clearSession.input = s.input := rfl

@[simp] theorem completePacket_buffer (s : State) (r : Record) (e : Nat) : (s.completePacket r e).buffer = .empty := rfl
@[simp] theorem completePacket_anchor (s : State) (r : Record) (e : Nat) : (s.completePacket r e).anchor = some e := rfl
@[simp] theorem completePacket_out (s : State) (r : Record) (e : Nat) : (s.completePacket r e).out = r.bundle := rfl
@[simp] theorem completePacket_input (s : State) (r : Record) (e : Nat) : (s.completePacket r e).input = s.input := rfl

@[simp] theorem pushFrame_buffer (s : State) (f : Frame) : (s.pushFrame f).buffer = s.buffer := rfl
@[simp] theorem pushFrame_anchor (s : State) (f : Frame) : (s.pushFrame f).anchor = s.anchor := rfl
@[simp] theorem pushFrame_out (s : State) (f : Frame) : (s.pushFrame f).out = s.out := rfl
@[simp] theorem pushFrame_input (s : State) (f : Frame) : (s.pushFrame f).input = f :: s.input := rfl

@[simp] theorem cnt_empty : Buffer.empty.cnt = 0 := rfl
@[simp] theorem bytes_empty : Buffer.empty.bytes = [] := rfl
@[simp] theorem firstStart_empty : Buffer.empty.firstStart = none := rfl
@[simp] theorem prevEnd_empty : Buffer.empty.prevEnd = none := rfl
@[simp] theorem discards_empty (p : Config.Params) (a : Nat) : Buffer.empty.discards p a = false := rfl

/-- `cnt` is the number of buffered bytes (R20). -/
theorem bytes_length (k : Buffer) : k.bytes.length = k.cnt.val := by
  cases k <;> rfl

/-- Only the empty buffer has count 0 (R28). -/
theorem cnt_eq_zero_iff (k : Buffer) : k.cnt = 0 ↔ k = .empty := by
  cases k <;> simp [Buffer.cnt]

/-- `prev_end` and `first_start` have a value exactly when `cnt > 0` (R20). -/
theorem prevEnd_eq_none_iff (k : Buffer) : k.prevEnd = none ↔ k = .empty := by
  cases k <;> simp [Buffer.prevEnd]

theorem firstStart_eq_none_iff (k : Buffer) : k.firstStart = none ↔ k = .empty := by
  cases k <;> simp [Buffer.firstStart]

/-- A buffer is its bytes and its two times. -/
theorem buffer_ext (k l : Buffer) (hb : k.bytes = l.bytes) (hf : k.firstStart = l.firstStart)
    (hp : k.prevEnd = l.prevEnd) : k = l := by
  cases k <;> cases l <;> simp_all [Buffer.bytes, Buffer.firstStart, Buffer.prevEnd]

end Sys2Proof.Laws
end

