-- ==== Sys2Proof/Laws/Ops.lean ====
section
/-! SUPPORT. What each shared operation over the buffer can do, said once. -/

namespace Sys2Proof.Laws

open Sys2Proof.Machine

/-- The machine's gap test is the condition of R103 over the state's elements. -/
theorem discards_iff (p : Config.Params) (s : State) (a : Nat) :
    s.buffer.discards p a = true ↔ s.gapFiresAt p a := by
  unfold Buffer.discards State.gapFiresAt State.prevEnd
  cases s.buffer.prevEnd <;> simp [gapExceeded]

theorem discards_eq_false_iff (p : Config.Params) (s : State) (a : Nat) :
    s.buffer.discards p a = false ↔ ¬ s.gapFiresAt p a := by
  rw [← discards_iff, Bool.not_eq_true]

/-- The append sees an empty buffer where the gap test fires, and the whole buffer where it does not. -/
theorem afterGapTest_of_fires {p : Config.Params} {s : State} {a : Nat} (h : s.gapFiresAt p a) :
    s.buffer.afterGapTest p a = .empty := by
  rw [Buffer.afterGapTest, if_pos ((discards_iff p s a).2 h)]

theorem afterGapTest_of_not {p : Config.Params} {s : State} {a : Nat} (h : ¬ s.gapFiresAt p a) :
    s.buffer.afterGapTest p a = s.buffer := by
  rw [Buffer.afterGapTest, (discards_eq_false_iff p s a).2 h, if_neg Bool.false_ne_true]

/-- Appending to fewer than five bytes holds one more byte, with the first event's start and this event's end. -/
theorem append_held (k : Buffer) (v : Byte) (a b : Nat) (h : k.cnt.val < 5) :
    ∃ l, k.append v a b = .held l ∧ l.bytes = k.bytes ++ [v] ∧ l.cnt.val = k.cnt.val + 1 ∧
      l.firstStart = some (k.firstStart.getD a) ∧ l.prevEnd = some b := by
  cases k <;> first
    | exact ⟨_, rfl, rfl, rfl, rfl, rfl⟩
    | exact absurd h (by simp [Buffer.cnt])

/-- Appending to five bytes completes the packet of the six, with the first event's start and this event's end. -/
theorem append_complete (k : Buffer) (v : Byte) (a b : Nat) (h : k.cnt.val = 5) :
    ∃ q t, k.append v a b = .complete q t b ∧ packetBytes q = k.bytes ++ [v] ∧ k.firstStart = some t := by
  cases k <;> first
    | exact ⟨_, _, rfl, rfl, rfl⟩
    | exact absurd h (by simp [Buffer.cnt])

end Sys2Proof.Laws
end

