-- ==== Sys2Proof/Laws/Exec.lean ====
section
/-! SUPPORT. What the emitter and the DATA command can do, said once. -/

namespace Sys2Proof.Laws

open Sys2Proof.Machine

/-- A packet class instruction completes the packet with the class's record. -/
theorem exec_classInstr (c : PacketClass) (b : Packet) (a e : Nat) (s : State) :
    exec (classInstr c b a e) s = .next (s.completePacket (classRecord c b a e) e) := by
  cases c <;> rfl

/-- `emit_packet` completes the packet with the record of the class it decodes to (R180). -/
theorem emitPacket_eq (p : Config.Params) (b : Packet) (a e : Nat) (s : State) :
    emitPacket p b a e s = .next (s.completePacket (classRecord (packetClass p s.anchor b a) b a e) e) := by
  unfold emitPacket
  cases packetClass p s.anchor b a <;> rfl

/-- What DATA does, said once: the buffer that the gap test leaves either takes the byte and is held, or is completed by
it and the packet is emitted (R102). -/
theorem execDataAt_cases (p : Config.Params) (v : Byte) (a b : Nat) (s : State) :
    ((s.buffer.afterGapTest p a).cnt.val < 5 ∧
      ∃ l, (s.buffer.afterGapTest p a).append v a b = .held l ∧ execDataAt p v a b s = .next (s.hold l)) ∨
    ((s.buffer.afterGapTest p a).cnt.val = 5 ∧
      ∃ q t, (s.buffer.afterGapTest p a).append v a b = .complete q t b ∧
        execDataAt p v a b s =
          .next (s.completePacket (classRecord (packetClass p s.anchor q t) q t b) b)) := by
  rcases Nat.lt_or_ge (s.buffer.afterGapTest p a).cnt.val 5 with h | h
  · obtain ⟨l, hl, -⟩ := append_held _ v a b h
    exact .inl ⟨h, l, hl, by rw [execDataAt, hl]⟩
  · have h5 : (s.buffer.afterGapTest p a).cnt.val = 5 := by omega
    obtain ⟨q, t, hq, -⟩ := append_complete _ v a b h5
    exact .inr ⟨h5, q, t, hq, by rw [execDataAt, hq]; exact emitPacket_eq p q t b s⟩

/-- DATA where the gap test fires: the new byte starts a new buffer (R103, R105). -/
theorem execDataAt_discard (p : Config.Params) (v : Byte) (a b : Nat) (s : State) (h : s.gapFiresAt p a) :
    execDataAt p v a b s = .next (s.hold (.fill1 v a b)) := by
  rw [execDataAt, afterGapTest_of_fires h]
  rfl

/-- DATA into fewer than five bytes, no gap: one more byte is held. -/
theorem execDataAt_hold (p : Config.Params) (v : Byte) (a b : Nat) (s : State) (h : ¬ s.gapFiresAt p a)
    (hc : s.cnt.val < 5) :
    ∃ l, execDataAt p v a b s = .next (s.hold l) ∧ l.bytes = s.bytes ++ [v] ∧ l.cnt.val = s.cnt.val + 1 ∧
      l.firstStart = some (s.firstStart.getD a) ∧ l.prevEnd = some b := by
  obtain ⟨l, hl, h'⟩ := append_held s.buffer v a b hc
  exact ⟨l, by rw [execDataAt, afterGapTest_of_not h, hl], h'⟩

/-- DATA into five bytes, no gap: the packet of the six bytes is emitted. -/
theorem execDataAt_complete (p : Config.Params) (v : Byte) (a b : Nat) (s : State) (h : ¬ s.gapFiresAt p a)
    (hc : s.cnt.val = 5) :
    ∃ q t, packetBytes q = s.bytes ++ [v] ∧ s.firstStart = some t ∧
      execDataAt p v a b s =
        .next (s.completePacket (classRecord (packetClass p s.anchor q t) q t b) b) := by
  obtain ⟨q, t, hq, hb, ht⟩ := append_complete s.buffer v a b hc
  exact ⟨q, t, hb, ht, by
    rw [execDataAt, afterGapTest_of_not h, hq]
    exact emitPacket_eq p q t b s⟩

/-- A class record's bundle is valid and carries the packet and its times (R183, the first rows). -/
theorem classRecord_bundle (c : PacketClass) (b : Packet) (a e : Nat) :
    (classRecord c b a e).bundle.valid = true ∧ (classRecord c b a e).bundle.bytes = b ∧
      (classRecord c b a e).bundle.startTime = a ∧ (classRecord c b a e).bundle.endTime = e := by
  cases c
  · exact ⟨rfl, rfl, rfl, rfl⟩
  · simp only [classRecord, validRecord, decodeUnit, Record.bundle]
    cases noReading b.payload.p1 <;> exact ⟨rfl, rfl, rfl, rfl⟩
  · simp only [classRecord, validRecord, decodePanelFeatures, Record.bundle]
    cases featuresResidual b.payload <;> exact ⟨rfl, rfl, rfl, rfl⟩
  · exact ⟨rfl, rfl, rfl, rfl⟩

end Sys2Proof.Laws
end

