-- ==== Sys2Proof/Laws/PerInstr.lean ====
section
/-! SUPPORT. A family of statements with one lemma per constructor of `Instr`. -/

namespace Sys2Proof.Laws.MatchesTable

open Sys2Proof.Machine

/-- The encoding of a well-formed instruction has the width of its row of spec/opcode_table.json and carries the row's
pattern: the word under the row's mask is the row's match. -/
def Statement (i : Instr) : Prop :=
  wellFormed i = true →
    (encode i).width = (tableRow i).nbits ∧ (encode i).bits &&& (tableRow i).mask = (tableRow i).matchBits

theorem idle : Statement .idle := fun _ => ⟨rfl, rfl⟩

theorem other : Statement .other := fun _ => ⟨rfl, rfl⟩

theorem sessionReset : Statement .sessionReset := fun _ => ⟨rfl, rfl⟩

theorem data (value : Byte) (inStart inEnd : Nat) : Statement (.data value inStart inEnd) := by
  refine fun _ => ⟨rfl, ?_⟩
  change (commandWord value 1).toNat &&& (2 ^ 2 - 1) = 1
  rw [Nat.and_two_pow_sub_one_eq_mod, toNat_commandWord]
  simp

theorem invalidChecksum (b : Packet) (startTime endTime : Nat) :
    Statement (.invalidChecksum b startTime endTime) := fun _ => ⟨rfl, Nat.and_zero _⟩

theorem unitResponse (b : Packet) (startTime endTime : Nat) :
    Statement (.unitResponse b startTime endTime) := fun _ => ⟨rfl, Nat.and_zero _⟩

/-- The selector bits of `p[0]` are bits 7 and 4 of the packet word (R63, R65). -/
theorem panelFeatures (b : Packet) (startTime endTime : Nat) :
    Statement (.panelFeatures b startTime endTime) := by
  refine fun h => ⟨rfl, ?_⟩
  have hs : featuresSelected b.b0 = true := by
    simp only [wellFormed, wellFormedAt, Bool.and_eq_true] at h
    exact h.2
  have h0 : b.b0 &&& 0x90 = 0x90 := by
    simpa [featuresSelected, Config.featuresMask] using hs
  have hw : b.toWord &&& 0x90 = 0x90 := by
    have hx : b.toWord &&& 0x90 = (b.b0 &&& 0x90).setWidth 48 := by
      ext k hk
      simp only [Packet.toWord, BitVec.getElem_and, BitVec.getElem_setWidth, BitVec.getElem_append]
      interval_cases k <;> simp
    rw [hx, h0]
    rfl
  exact congrArg BitVec.toNat hw

theorem panelStatus (b : Packet) (startTime endTime : Nat) :
    Statement (.panelStatus b startTime endTime) := fun _ => ⟨rfl, Nat.and_zero _⟩

end Sys2Proof.Laws.MatchesTable
end

