-- ==== Sys2Proof/Laws/Step.lean ====
section
/-! SUPPORT. What one step can do, said once. -/

namespace Sys2Proof.Laws

open Sys2Proof.Machine

/-- `exec` is the machine at the parameters of the instance it runs. -/
theorem execAt_params (i : Instr) (s : State) : execAt Config.params i s = exec i s := by
  cases i <;> rfl

/-- `step` is the machine at the parameters of the instance it runs. -/
theorem step_eq_stepAt (s : State) : step s = stepAt Config.params s := by
  unfold step stepAt
  cases fetchAt Config.params s
  · exact (execAt_params _ _).symm
  · rfl

/-- Every instruction has a next state in every state: nothing stops the block (R200). -/
theorem execAt_next (p : Config.Params) (i : Instr) (s : State) : ∃ t, execAt p i s = .next t ∧ t.input = s.input := by
  cases i with
  | data v a b =>
    rcases execDataAt_cases p v a b s with ⟨-, l, -, h⟩ | ⟨-, q, t, -, h⟩
    · exact ⟨_, h, rfl⟩
    · exact ⟨_, h, rfl⟩
  | _ => exact ⟨_, rfl, rfl⟩

/-- The three things a step can be: IDLE with nothing at the port, the decoded command, or the one refusal. -/
theorem stepAt_cases (p : Config.Params) (s : State) :
    (s.input = [] ∧ stepAt p s = execAt p .idle s) ∨
    (∃ f rest i, s.input = f :: rest ∧ decodeFrameAt p f = .ok i ∧
      stepAt p s = execAt p i { s with input := rest }) ∨
    (∃ f rest, s.input = f :: rest ∧ decodeFrameAt p f = .error .timestampOutOfRange ∧
      stepAt p s = .refused .timestampOutOfRange) := by
  rcases hs : s.input with _ | ⟨f, rest⟩
  · exact .inl ⟨rfl, by simp [stepAt, fetchAt, hs]⟩
  · rcases hd : decodeFrameAt p f with r | i
    · cases r
      exact .inr (.inr ⟨f, rest, rfl, hd, by simp [stepAt, fetchAt, hs, hd, refusalOf]⟩)
    · exact .inr (.inl ⟨f, rest, i, rfl, hd, by simp [stepAt, fetchAt, hs, hd]⟩)

/-- A run whose first step answers `u` goes on from `u`. -/
theorem coreAt_run_succ (p : Config.Params) (k : Nat) (s u : State) (h : stepAt p s = .next u) :
    (coreAt p).run (k + 1) s = (coreAt p).run k u := by
  have h : (coreAt p).step s = .next u := h
  simp only [Host.Core.run, h]

theorem core_run_succ (k : Nat) (s u : State) (h : step s = .next u) : core.run (k + 1) s = core.run k u := by
  have h : core.step s = .next u := h
  simp only [Host.Core.run, h]

end Sys2Proof.Laws
end

