-- ==== Sys2Proof/Tests/Slice0.lean ====
section
/-! SUPPORT. Tests of the model's own text, and one witness for each group of hypotheses of a statement.  Expected values come
from 95_test_vectors.md (the vector's name stands in the test's comment) or from the rule named; the vectors' configuration is
`Config.vectorParams`. -/

open Sys2Proof Sys2Proof.Machine

namespace Sys2Proof.Tests

/-! ## Helpers -/

/-- The packet of W1 and its five buffered bytes; W3 is W1 with the trailer 0x09; the packets of W2 and V-PF-4. -/
def w1 : Packet := ⟨0x10, 0x28, 0x25, 0x00, 0x00, 0x08⟩
def w2 : Packet := ⟨0xAA, 0x28, 0x00, 0x00, 0x00, 0x87⟩
def w3 : Packet := ⟨0x10, 0x28, 0x25, 0x00, 0x00, 0x09⟩
def pf4 : Packet := ⟨0x90, 0x12, 0x34, 0x56, 0x78, 0xF1⟩

/-- A state with the buffer `k` and the anchor `anchor`. -/
def stateOf (k : Buffer) (anchor : Option Nat) : State := { State.reset with buffer := k, anchor := anchor }

/-- One byte held, ending at time 10; and W1's first five bytes held, ending at time 50. -/
def one : State := stateOf (.fill1 0x11 0 10) none
def five : State := stateOf (.fill5 0x10 0x28 0x25 0x00 0x00 0 50) none

/-- A state with the frames `l` at the port. -/
def streamOf (l : List Frame) : State := { State.reset with input := l }

/-- A start that is one tick more than `GAP_MAX` after `prevEnd`. -/
def late (prevEnd : Nat) : Nat := prevEnd + Config.params.gapMax + 1

/-- The next state of an outcome, or the reset state. -/
def after (o : Host.Outcome State Fault Refusal) : State :=
  match o with
  | .next t => t
  | .fault _ => .reset
  | .refused _ => .reset

/-! ## Ill-formed instructions, one for each check -/

theorem test_data_start_off_the_bus : wellFormedAt Config.vectorParams (.data 0x10 (2 ^ 64) 0) = false := by decide
theorem test_data_end_off_the_bus : wellFormedAt Config.vectorParams (.data 0x10 0 (2 ^ 64)) = false := by decide
theorem test_data_at_the_top_of_the_bus :
    wellFormedAt Config.vectorParams (.data 0x10 (2 ^ 64 - 1) (2 ^ 64 - 1)) = true := by decide
theorem test_packet_start_off_the_bus :
    wellFormedAt Config.vectorParams (.invalidChecksum w3 (2 ^ 64) 0) = false := by decide
theorem test_packet_end_off_the_bus : wellFormedAt Config.vectorParams (.panelStatus w1 0 (2 ^ 64)) = false := by decide
theorem test_invalid_class_of_a_valid_packet :
    wellFormedAt Config.vectorParams (.invalidChecksum w1 0 60) = false := by decide
theorem test_unit_class_of_an_invalid_packet :
    wellFormedAt Config.vectorParams (.unitResponse w3 0 60) = false := by decide
theorem test_features_class_of_an_invalid_packet :
    wellFormedAt Config.vectorParams (.panelFeatures { pf4 with b5 := 0 } 0 60) = false := by decide
theorem test_features_class_without_the_selector :
    wellFormedAt Config.vectorParams (.panelFeatures w1 0 60) = false := by decide
theorem test_status_class_of_an_invalid_packet :
    wellFormedAt Config.vectorParams (.panelStatus w3 0 60) = false := by decide
theorem test_status_class_with_the_selector :
    wellFormedAt Config.vectorParams (.panelStatus pf4 0 60) = false := by decide

/-- V-EMIT-2 and V-EMIT-3: the same bytes, one tick apart, agree with Panel and with Unit. -/
theorem test_anchor_decides_the_source :
    agreesWithAnchorAt Config.vectorParams (some 60) (.unitResponse w2 300059 300119) = true ∧
    agreesWithAnchorAt Config.vectorParams (some 60) (.unitResponse w2 300060 300120) = false ∧
    agreesWithAnchorAt Config.vectorParams (some 60) (.panelStatus w2 300060 300120) = true := by decide

/-! ## Decoding: words written out from 30_encoding.md R60 and R63 and from 95_test_vectors.md -/

/-- `[0x041; 1000; 1010]`: bits 01 of `cmd`, 0001_0000 of `value`. -/
theorem test_decode_data :
    decodeFrameAt Config.vectorParams ⟨0x041, 1000, 1010⟩ = .ok (.data 0x10 1000 1010) := by decide
/-- V-AGG-1 `[0x045;0;10]`, and P1 step 8 `[0x04D; 5200; 6240]`. -/
theorem test_decode_data_values :
    decodeFrameAt Config.vectorParams ⟨0x045, 0, 10⟩ = .ok (.data 0x11 0 10) ∧
    decodeFrameAt Config.vectorParams ⟨0x3FD, 3120, 4160⟩ = .ok (.data 0xFF 3120 4160) := by decide
theorem test_decode_idle : decodeFrameAt Config.vectorParams ⟨0x3FC, 5, 6⟩ = .ok .idle := by decide
theorem test_decode_other :
    decodeFrameAt Config.vectorParams ⟨0x002, 5000000, 5000010⟩ = .ok .other := by decide
theorem test_decode_session_reset : decodeFrameAt Config.vectorParams ⟨0x003, 0, 0⟩ = .ok .sessionReset := by decide
theorem test_decode_rejects_a_timestamp_off_the_bus :
    decodeFrameAt Config.vectorParams ⟨0x041, 2 ^ 64, 0⟩ = .error .timestampOutOfRange := by decide
/-- W3: bytes 10 28 25 00 00 09, byte 0 in the lowest bits. -/
theorem test_decode_invalid_checksum :
    decodeAt Config.vectorParams none (.packet 0x090000252810 0 60) = .ok (.invalidChecksum w3 0 60) := by decide
/-- W2: bytes AA 28 00 00 00 87, 100 000 ticks after the anchor. -/
theorem test_decode_unit_response :
    decodeAt Config.vectorParams (some 60) (.packet 0x8700000028AA 100060 100120) =
      .ok (.unitResponse w2 100060 100120) := by decide
/-- V-PF-4: bytes 90 12 34 56 78 F1. -/
theorem test_decode_panel_features :
    decodeAt Config.vectorParams none (.packet 0xF17856341290 0 60) = .ok (.panelFeatures pf4 0 60) := by decide
/-- W1: bytes 10 28 25 00 00 08. -/
theorem test_decode_panel_status :
    decodeAt Config.vectorParams none (.packet 0x080000252810 0 60) = .ok (.panelStatus w1 0 60) := by decide
theorem test_encode_data : encode (.data 0x10 1000 1010) = .command ⟨0x041, 1000, 1010⟩ := by decide
theorem test_encode_panel_features : encode (.panelFeatures pf4 0 60) = .packet 0xF17856341290 0 60 := by decide

/-- The table's words. -/
theorem test_table_words :
    decodeTableWord 16 0x000 = some .idle ∧ decodeTableWord 16 0x041 = some (.data 0x10 0 0) ∧
    decodeTableWord 16 0x002 = some .other ∧ decodeTableWord 16 0x003 = some .sessionReset ∧
    decodeTableWord 48 0 = some (.invalidChecksum zeroPacket 0 0) ∧
    decodeTableWord 48 0xC50000000090 = some (.panelFeatures ⟨0x90, 0, 0, 0, 0, 0xC5⟩ 0 0) ∧
    decodeTableWord 48 0x550000000000 = some (.panelStatus ⟨0, 0, 0, 0, 0, 0x55⟩ 0 0) ∧
    decodeTableWord 16 0x400 = none ∧ decodeTableWord 48 0x1000000000000 = none := by decide

/-- A command word placed at the port is the very next instruction. -/
theorem test_fetch_runs_a_command_word :
    step (State.reset.withFetchWord 16 0x041) = exec (.data 0x10 0 0) State.reset := by rfl
/-- A packet word placed at the port completes in the very next step, as the class it decodes to. -/
theorem test_fetch_runs_a_packet_word :
    step (State.reset.withFetchWord 48 0x080000252810) = exec (.panelStatus w1 0 0) State.reset := by rfl

/-! ## One step of each instruction -/

/-- The example of R100. -/
theorem test_idle_keeps_the_buffer :
    after (exec .idle (stateOf (.fill3 1 2 3 0 30) (some 900))) = stateOf (.fill3 1 2 3 0 30) (some 900) := by decide
/-- The example of R101. -/
theorem test_other_keeps_the_buffer :
    after (exec .other (stateOf (.fill2 1 2 0 200) none)) = stateOf (.fill2 1 2 0 200) none := by decide
/-- The example of R104. -/
theorem test_session_reset :
    after (exec .sessionReset (stateOf (.fill4 1 2 3 4 0 40) (some 900))) = State.reset := by decide
/-- V-AGG-2, V-AGG-3, V-AGG-4 and V-AGG-11: a gap of `GAP_MAX` keeps, one tick more discards, a negative gap keeps, and
the difference does not wrap. -/
theorem test_data_gap :
    (after (execDataAt Config.vectorParams 0x22 11 21 one)).buffer = .fill2 0x11 0x22 0 21 ∧
    (after (execDataAt Config.vectorParams 0x22 12 22 one)).buffer = .fill1 0x22 12 22 ∧
    (after (execDataAt Config.vectorParams 0x22 5 15 one)).buffer = .fill2 0x11 0x22 0 15 ∧
    (after (execDataAt Config.vectorParams 0x22 5 15 (stateOf (.fill1 0x11 (2 ^ 64 - 11) (2 ^ 64 - 1)) none))).buffer =
      .fill2 0x11 0x22 (2 ^ 64 - 11) 15 := by decide
/-- V-AGG-6 and V-AGG-5: the sixth byte completes W1, and after a gap it starts a new buffer. -/
theorem test_data_sixth_byte :
    after (execDataAt Config.vectorParams 0x08 50 60 five) = after (exec (.panelStatus w1 0 60) State.reset) ∧
    (after (execDataAt Config.vectorParams 0x08 50 60 five)).anchor = some 60 ∧
    after (execDataAt Config.vectorParams 0x08 1000 1010 five) = stateOf (.fill1 0x08 1000 1010) none := by decide
/-- W3. -/
theorem test_invalid_checksum_record :
    (after (exec (.invalidChecksum w3 0 60) five)).out.toRecord = some (.invalidChecksum 0 60 w3) ∧
    (after (exec (.invalidChecksum w3 0 60) five)).anchor = some 60 := by decide
/-- W2. -/
theorem test_unit_record :
    (after (exec (.unitResponse w2 100060 100120) five)).out.toRecord =
      some (.validPacket 100060 100120 w2.payload 0x87 .unit (.unit (some 60)) (some ⟨0xAA, 0, 0, 0, 0⟩)) := by decide
/-- V-UNIT-3, V-UNIT-4 and V-UNIT-7. -/
theorem test_unit_decoder :
    decodeUnit ⟨0x12, 0x7F, 0x34, 0x56, 0x78⟩ = (.unit (some 147), some ⟨0x12, 0, 0x34, 0x56, 0x78⟩) ∧
    decodeUnit ⟨0x12, 0x80, 0x34, 0x56, 0x78⟩ = (.unit none, some ⟨0x12, 0x80, 0x34, 0x56, 0x78⟩) ∧
    decodeUnit ⟨0x90, 0x28, 0x25, 0, 0⟩ = (.unit (some 60), some ⟨0x90, 0, 0x25, 0, 0⟩) := by decide
/-- V-PF-4. -/
theorem test_features_record :
    (after (exec (.panelFeatures pf4 0 60) five)).out.toRecord =
      some (.validPacket 0 60 pf4.payload 0xF1 .panel .panelFeatures (some ⟨0, 0x12, 0x34, 0x56, 0⟩)) := by decide
/-- V-PF-2 and V-PF-3. -/
theorem test_features_decoder :
    decodePanelFeatures ⟨0x90, 0, 0, 0, 0x7F⟩ = (.panelFeatures, none) ∧
    decodePanelFeatures ⟨0xFF, 0, 1, 0, 0⟩ = (.panelFeatures, some ⟨0, 0, 1, 0, 0⟩) := by decide
/-- V-PS-3. -/
theorem test_status_record :
    decodePanelStatus ⟨0x4D, 0x2C, 0xCF, 0xFF, 0xFF⟩ =
      (.panelStatus
        { mode := 4, resistor := true, running := true, settingsChanged := true, roomTempHalf := 64, plasma := true
          fan := 4, setTemp := 31, swivel := true, swirl := true }, some ⟨0, 0, 0, 0xDF, 0xFE⟩) := by decide
/-- V-PS-4: the largest temperature, an unknown fan code, and a residual in byte 0. -/
theorem test_status_unknown_fan :
    decodePanelStatus ⟨0x2F, 0xFF, 0x70, 0x20, 0x01⟩ =
      (.panelStatus
        { mode := 2, resistor := true, running := true, settingsChanged := true, roomTempHalf := 275, plasma := false
          fan := 7, setTemp := 16, swivel := true, swirl := true }, some ⟨2, 0, 0, 0, 0⟩) ∧
    fanKnown 7 = false ∧ modeKnown 2 = true := by decide

/-- V-CHK-1, V-CHK-4, V-CHK-5, V-CHK-6 and V-CHK-10. -/
theorem test_checksum :
    checksum w1.payload = 0x08 ∧ checksum ⟨0xFF, 0xFF, 0xFF, 0xFF, 0xFF⟩ = 0xAE ∧
    checksum ⟨0x55, 0, 0, 0, 0⟩ = 0x00 ∧ checksum ⟨0x80, 0x80, 0, 0, 0⟩ = 0x55 ∧ checksum pf4.payload = 0xF1 := by decide
/-- V-CLS-1, V-CLS-2, V-CLS-3 and V-CLS-6. -/
theorem test_classifier :
    classify Config.vectorParams none 5 = .panel ∧ classify Config.vectorParams (some 1000000) 1299999 = .unit ∧
    classify Config.vectorParams (some 1000000) 1300000 = .panel ∧
    classify Config.vectorParams (some 1000000) 999000 = .unit := by decide
/-- The paragraph after V-CLS-7: `TICK_HZ = 7`, gaps of 2 and 3 ticks. -/
theorem test_classifier_with_seven_ticks_a_second :
    classify ⟨64, 7, 1, by decide, by decide⟩ (some 0) 2 = .unit ∧
    classify ⟨64, 7, 1, by decide, by decide⟩ (some 0) 3 = .panel := by decide
/-- I3: illegal configurations are rejected. -/
theorem test_illegal_parameters :
    Config.Params.ofNumbers 64 0 0 = none ∧ Config.Params.ofNumbers 64 10 20 = none ∧
    (Config.Params.ofNumbers 64 10 19).isSome = true := by decide

/-! ## Witnesses: states and operands that meet the hypotheses of the statements, all of them together -/

theorem witness_CommandWordLayout :
    (streamOf [⟨0x041, 0, 0⟩]).input = ⟨0x041, 0, 0⟩ :: [] ∧
    deliverableAt Config.params ⟨0x041, 0, 0⟩ = true := ⟨rfl, by simp [deliverableAt]⟩

theorem witness_DecodeOfEncode :
    (wellFormed .idle = true ∧ agreesWithAnchor none .idle = true) ∧
    (wellFormed (.data 0xFF 0 0) = true ∧ agreesWithAnchor (some 60) (.data 0xFF 0 0) = true) ∧
    (wellFormed .other = true ∧ agreesWithAnchor none .other = true) ∧
    (wellFormed .sessionReset = true ∧ agreesWithAnchor none .sessionReset = true) ∧
    (wellFormed (.invalidChecksum w3 0 0) = true ∧ agreesWithAnchor (some 60) (.invalidChecksum w3 0 0) = true) ∧
    (wellFormed (.unitResponse w2 0 0) = true ∧ agreesWithAnchor (some 60) (.unitResponse w2 0 0) = true) ∧
    (wellFormed (.panelFeatures pf4 0 0) = true ∧ agreesWithAnchor none (.panelFeatures pf4 0 0) = true) ∧
    (wellFormed (.panelStatus w1 0 0) = true ∧ agreesWithAnchor none (.panelStatus w1 0 0) = true) := by decide

theorem witness_EncodeOfDecode :
    decode none (.command ⟨0x041, 0, 0⟩) = .ok (.data 0x10 0 0) ∧ (⟨0x041, 0, 0⟩ : Frame).cmd = 1 ∧
    decode none (.command ⟨0x3FC, 7, 9⟩) = .ok .idle ∧
    decode none (.packet 0x080000252810 0 0) = .ok (.panelStatus w1 0 0) := by decide

theorem witness_CommandCodesSelectTheCommand :
    (⟨0x3FC, 0, 0⟩ : Frame).cmd = 0 ∧ (⟨0x3FD, 0, 0⟩ : Frame).cmd = 1 ∧ (⟨0x3FE, 0, 0⟩ : Frame).cmd = 2 ∧
    (⟨0x3FF, 0, 0⟩ : Frame).cmd = 3 ∧ 0 < 2 ^ Config.params.tsW ∧
    (streamOf [⟨0x3FC, 0, 0⟩]).input = ⟨0x3FC, 0, 0⟩ :: [] ∧ (⟨0x000, 5, 6⟩ : Frame).cmd = (⟨0x3FC, 0, 0⟩ : Frame).cmd :=
  ⟨by decide, by decide, by decide, by decide, Nat.two_pow_pos _, rfl, by decide⟩

theorem witness_EveryWordIsALegalCommand :
    0 < 2 ^ Config.params.tsW ∧ (0x3FE : BitVec 10).toNat % 4 = (0x002 : BitVec 10).toNat % 4 ∧
    (0x3FE : BitVec 10).toNat % 4 ≠ 1 := ⟨Nat.two_pow_pos _, by decide, by decide⟩

theorem witness_StepRunsDecodedInstruction :
    (streamOf [⟨0x041, 0, 0⟩]).input = ⟨0x041, 0, 0⟩ :: [] ∧ decodeFrame ⟨0x041, 0, 0⟩ = .ok (.data 0x10 0 0) := by decide

theorem witness_NothingAtThePortIsIdle : State.reset.input = [] := rfl

/-- A frame that is refused: `in_start = 2^TS_W`. -/
theorem witness_RefusesOnlyTimestampsOffTheBus :
    step (streamOf [⟨0x041, 2 ^ Config.params.tsW, 0⟩]) = .refused .timestampOutOfRange := by
  have h : Config.params.fits (2 ^ Config.params.tsW) = false := (Laws.fits_eq_false_iff _ _).2 (le_refl _)
  simp [step, fetchAt, streamOf, decodeFrameAt, h, refusalOf]
  rfl

theorem witness_NeverStopsConsuming : (streamOf [⟨0x041, 0, 0⟩, ⟨0x000, 0, 0⟩]).streamDeliverable := by
  simp [State.streamDeliverable, streamOf, deliverableAt]

theorem witness_IdleChangesNothing :
    (⟨0x3FC, 0, 0⟩ : Frame).word.toNat % 4 = 0 ∧ (streamOf [⟨0, 0, 0⟩]).input = List.replicate 1 ⟨0, 0, 0⟩ ∧
    core.run 1 (streamOf [⟨0, 0, 0⟩]) = .next State.reset := ⟨by decide, rfl, rfl⟩

theorem witness_OtherIsIgnored :
    (⟨0x3FE, 0, 0⟩ : Frame).word.toNat % 4 = 2 ∧ exec .other five = .next five := ⟨by decide, rfl⟩

theorem witness_SessionResetClears :
    (⟨0x3FF, 0, 0⟩ : Frame).word.toNat % 4 = 3 ∧ exec .sessionReset five = .next State.reset := ⟨by decide, rfl⟩

/-- The three cases of `kept`: a discard, a kept buffer of one and of five bytes, and an empty buffer. -/
theorem witness_DataFollowsThePseudocode :
    (one.prevEnd = some 10 ∧ 10 + Config.params.gapMax < late 10) ∧
    (one.prevEnd = some 10 ∧ ¬ 10 + Config.params.gapMax < 10 ∧ one.bytes.length < 5) ∧
    (five.prevEnd = some 50 ∧ ¬ 50 + Config.params.gapMax < 50 + Config.params.gapMax ∧ ¬ five.bytes.length < 5) ∧
    State.reset.prevEnd = none ∧ deliverableAt Config.params ⟨0x041, 0, 0⟩ = true := by
  refine ⟨⟨rfl, by unfold late; omega⟩, ⟨rfl, by omega, by decide⟩, ⟨rfl, by omega, by decide⟩, rfl, ?_⟩
  simp [deliverableAt]

/-- The gap test fires one tick past `GAP_MAX`. -/
theorem one_gapFires : one.gapFires (late 10) := ⟨10, rfl, by unfold late; omega⟩
theorem five_gapFires : five.gapFires (late 50) := ⟨50, rfl, by unfold late; omega⟩
/-- The gap test does not fire at `GAP_MAX` itself. -/
theorem one_not_gapFires : ¬ one.gapFires (10 + Config.params.gapMax) := by
  rintro ⟨e, he, h⟩; cases he; omega
theorem five_not_gapFires : ¬ five.gapFires (50 + Config.params.gapMax) := by
  rintro ⟨e, he, h⟩; cases he; omega
theorem five_not_gapFires_back : ¬ five.gapFires 0 := by
  rintro ⟨e, he, h⟩; cases he; omega

theorem witness_GapTestIsExactAndStrict :
    (one.prevEnd = some 10 ∧ (late 10 : Int) - (10 : Nat) > Config.params.gapMax) ∧
    (one.prevEnd = some 10 ∧ ((10 + Config.params.gapMax : Nat) : Int) - (10 : Nat) ≤ Config.params.gapMax ∧
      one.cnt.val < 5) ∧
    (five.prevEnd = some 50 ∧ ((50 + Config.params.gapMax : Nat) : Int) - (50 : Nat) ≤ Config.params.gapMax ∧
      five.cnt.val = 5) := by
  refine ⟨⟨rfl, by unfold late; omega⟩, ⟨rfl, by omega, by decide⟩, ⟨rfl, by omega, by decide⟩⟩

theorem witness_DiscardLeavesNoTrace :
    one.gapFires (late 50) ∧ five.gapFires (late 50) ∧ one.anchor = five.anchor ∧ one.input = five.input :=
  ⟨⟨10, rfl, by unfold late; omega⟩, five_gapFires, rfl, rfl⟩

theorem witness_EmptyBufferIsNeverGapTested : (stateOf .empty (some 60)).cnt = 0 := rfl

theorem witness_TransitionTable :
    State.reset.cnt.val = 0 ∧ (1 ≤ one.cnt.val ∧ one.cnt.val ≤ 4 ∧ ¬ one.gapFires (10 + Config.params.gapMax)) ∧
    (1 ≤ five.cnt.val ∧ five.gapFires (late 50)) ∧ (five.cnt.val = 5 ∧ ¬ five.gapFires (50 + Config.params.gapMax)) :=
  ⟨rfl, ⟨by decide, by decide, one_not_gapFires⟩, ⟨by decide, five_gapFires⟩, rfl, five_not_gapFires⟩

theorem witness_OnlyDataMovesPrevEnd : exec .idle five = .next five ∧ exec .other five = .next five := ⟨rfl, rfl⟩

/-- W1 delivered with every byte at time 0. -/
theorem witness_SixBytesGiveOneRecord :
    (streamOf (pkt 0 0 w1)).cnt = 0 ∧
    (streamOf (pkt 0 0 w1)).input =
      [dataFrame w1.b0 0 0, dataFrame w1.b1 0 0, dataFrame w1.b2 0 0, dataFrame w1.b3 0 0, dataFrame w1.b4 0 0,
        dataFrame w1.b5 0 0] ++ [] ∧
    (∀ f ∈ (streamOf (pkt 0 0 w1)).input.take 6, deliverableAt Config.params f = true) ∧
    0 ≤ 0 + Config.params.gapMax := by
  refine ⟨rfl, rfl, ?_, Nat.zero_le _⟩
  simp [streamOf, pkt, deliverableAt, dataFrame, commandFrame]

theorem witness_PktNotationGivesThePacket :
    State.reset.cnt = 0 ∧ 0 + 6 * 0 < 2 ^ Config.params.tsW ∧ (streamOf (pkt 0 0 w3)).input = pkt 0 0 w3 ++ [] ∧
    (streamOf (pktc 0 0 w1.payload)).input = pktc 0 0 w1.payload ++ [] :=
  ⟨rfl, Nat.two_pow_pos _, rfl, rfl⟩

/-- Completing W1 with the sixth byte starting at 0, whatever the parameters are. -/
theorem five_completes : ∃ t, exec (.data 0x08 0 60) five = .next t ∧ t.out.bytes = w1 ∧ t.out.kind = true := by
  have h : five.buffer.afterGapTest Config.params 0 = five.buffer := Laws.afterGapTest_of_not five_not_gapFires_back
  have e : execDataAt Config.params 0x08 0 60 five =
      .next (five.completePacket (classRecord (packetClass Config.params five.anchor w1 0) w1 0 60) 60) := by
    rw [execDataAt, h]
    exact Laws.emitPacket_eq Config.params w1 0 60 five
  exact ⟨_, e, rfl, rfl⟩

theorem witness_RecordExactlyOnTheSixthByte :
    (∃ t, exec (.data 0x08 0 60) five = .next t) ∧ exec .idle five = .next five ∧ exec .other five = .next five ∧
    exec .sessionReset five = .next State.reset :=
  ⟨five_completes.imp fun _ h => h.1, rfl, rfl, rfl⟩

theorem witness_ChecksumIgnoresOrder : (payloadBytes ⟨1, 2, 3, 4, 5⟩).Perm (payloadBytes ⟨5, 4, 3, 2, 1⟩) := by decide

theorem witness_ValidateFindsSingleByteErrors :
    validate w1 = true ∧ (0x11 : Byte) ≠ w1.b0 ∧ (0 : Byte) ≠ w1.b1 ∧ (0 : Byte) ≠ w1.b2 ∧ (1 : Byte) ≠ w1.b3 ∧
    (1 : Byte) ≠ w1.b4 ∧ (0x09 : Byte) ≠ w1.b5 := by decide

theorem witness_InvalidPacketIsNotDecoded : w3.b5 ≠ checksum w3.payload := by decide

theorem witness_ClassifierBoundary :
    (Config.vectorParams.tickHz = 10 * 100000 ∧ ((300000 : Nat) : Int) - (0 : Nat) = 3 * 100000 ∧
      ((299999 : Nat) : Int) - (0 : Nat) < 3 * 100000) ∧
    ¬ 10 ∣ (⟨64, 7, 1, by decide, by decide⟩ : Config.Params).tickHz ∧
    (exec (.invalidChecksum w3 0 60) five = .next (after (exec (.invalidChecksum w3 0 60) five)) ∧
      w2.b5 = checksum w2.payload ∧ 10 * ((60 : Nat) - (60 : Nat) : Int) < 3 * Config.params.tickHz) := by
  refine ⟨by decide, by decide, rfl, by decide, ?_⟩
  have := Config.params.tickHz_pos
  omega

theorem witness_NonPositiveGapIsUnit : 5 ≤ 5 ∧ 999000 ≤ 1000000 := by decide

theorem witness_FirstValidPacketIsPanel :
    five.anchor = none ∧ five.cnt.val = 5 ∧ ¬ five.gapFires 0 ∧
    ∃ t, exec (.data 0x08 0 60) five = .next t ∧ validate t.out.bytes = true := by
  obtain ⟨t, h, hb, -⟩ := five_completes
  exact ⟨rfl, rfl, five_not_gapFires_back, t, h, by rw [hb]; decide⟩

theorem witness_AnchorAdvancesOnEveryPacket :
    exec (classInstr .unitResponse w2 0 60) five = .next (after (exec (.unitResponse w2 0 60) five)) ∧
    (five.cnt.val = 5 ∧ ¬ five.gapFires 0 ∧ ∃ t, exec (.data 0x08 0 60) five = .next t) ∧
    (¬ (one.cnt.val = 5 ∧ ¬ one.gapFires 0) ∧ ∃ t, exec (.data 0x08 0 60) one = .next t) ∧
    exec .idle five = .next five := by
  refine ⟨rfl, ⟨rfl, five_not_gapFires_back, five_completes.imp fun _ h => h.1⟩, ⟨fun h => absurd h.1 (by decide), ?_⟩, rfl⟩
  exact (Laws.execAt_next Config.params (.data 0x08 0 60) one).imp fun _ h => h.1

theorem witness_UnitResponseRecord : w2.b1.toNat < 128 ∧ 128 ≤ (0x80 : Byte).toNat ∧ (0x7F : Byte).toNat < 128 := by decide

theorem witness_PanelFeaturesRecord :
    ¬ (pf4.b1 = 0 ∧ pf4.b2 = 0 ∧ pf4.b3 = 0) ∧
    ((⟨0x90, 0, 0, 0, 0x7F, 0x5A⟩ : Packet).b1 = 0 ∧ (⟨0x90, 0, 0, 0, 0x7F, 0x5A⟩ : Packet).b2 = 0 ∧
      (⟨0x90, 0, 0, 0, 0x7F, 0x5A⟩ : Packet).b3 = 0) := by decide

/-- The two premises of the temperature and operand statements, on a packet that reports a temperature. -/
theorem witness_TemperatureIsExactInHalfDegrees :
    exec (.unitResponse w2 0 60) five = .next (after (exec (.unitResponse w2 0 60) five)) ∧
    exec (.panelStatus w2 0 60) five = .next (after (exec (.panelStatus w2 0 60) five)) ∧
    (after (exec (.unitResponse w2 0 60) five)).out.tempPresent = true := ⟨rfl, rfl, by decide⟩

theorem witness_AssembledOperandRanges :
    exec (.unitResponse w2 0 60) five = .next (after (exec (.unitResponse w2 0 60) five)) ∧
    exec (.panelStatus w2 0 60) five = .next (after (exec (.panelStatus w2 0 60) five)) ∧
    (after (exec (.unitResponse w2 0 60) five)).out.tempPresent = true := ⟨rfl, rfl, by decide⟩

/-- V-PS-5 and W1 differ in the mode and fan codes only. -/
theorem witness_UnrecognisedCodeTouchesNothingElse :
    (0x30 : Byte) &&& 0x8F = (0x10 : Byte) &&& 0x8F ∧ (0x35 : Byte) &&& 0x8F = (0x25 : Byte) &&& 0x8F ∧
    exec (.panelStatus ⟨0x30, 0x28, 0x35, 0, 0, 0xD8⟩ 0 60) five =
      .next (after (exec (.panelStatus ⟨0x30, 0x28, 0x35, 0, 0, 0xD8⟩ 0 60) five)) ∧
    exec (.panelStatus w1 0 60) five = .next (after (exec (.panelStatus w1 0 60) five)) := ⟨by decide, by decide, rfl, rfl⟩

/-- V-PS-6 and its neighbour. -/
theorem witness_StatusBitSevenIsDropped :
    exec (.panelStatus ⟨0x80, 0x28, 0x25, 0, 0, 0x98⟩ 0 60) five =
      .next (after (exec (.panelStatus ⟨0x80, 0x28, 0x25, 0, 0, 0x98⟩ 0 60) five)) ∧
    (0x80 : Byte) ^^^ 0x80 = 0x00 := ⟨rfl, by decide⟩

/-- Two states with the same packet in progress and different last bytes' ends. -/
theorem witness_RecordIsAFunctionOfThePacket :
    five.bytes = (stateOf (.fill5 0x10 0x28 0x25 0x00 0x00 0 40) none).bytes ∧
    five.firstStart = (stateOf (.fill5 0x10 0x28 0x25 0x00 0x00 0 40) none).firstStart ∧
    five.anchor = (stateOf (.fill5 0x10 0x28 0x25 0x00 0x00 0 40) none).anchor ∧ five.cnt.val = 5 ∧
    ¬ five.gapFires 0 ∧ ¬ (stateOf (.fill5 0x10 0x28 0x25 0x00 0x00 0 40) none).gapFires 40 ∧
    (∃ t, exec (.data 0x08 0 60) five = .next t) ∧
    ∃ t, exec (.data 0x08 40 60) (stateOf (.fill5 0x10 0x28 0x25 0x00 0x00 0 40) none) = .next t := by
  refine ⟨rfl, rfl, rfl, rfl, five_not_gapFires_back, ?_, five_completes.imp fun _ h => h.1, ?_⟩
  · rintro ⟨e, he, h⟩; cases he; omega
  · exact (Laws.execAt_next Config.params (.data 0x08 40 60) _).imp fun _ h => h.1

/-- A consistent record, and the bundle of each column. -/
theorem witness_BundleAndRecordAreEquivalent :
    (Record.validPacket 0 60 w2.payload 0x87 .unit (.unit (some 60)) none).consistent = true ∧
    Bundle.noRecord.legal ∧ (after (exec (.invalidChecksum w3 0 60) five)).out.legalInvalid ∧
    (after (exec (.unitResponse w2 0 60) five)).out.legalUnit ∧
    (after (exec (.panelFeatures pf4 0 60) five)).out.legalFeatures ∧
    (after (exec (.panelStatus w1 0 60) five)).out.legalStatus :=
  ⟨by decide, .inl rfl, ⟨rfl, by decide⟩, ⟨rfl, by decide, by decide⟩, ⟨rfl, by decide, by decide, by decide⟩,
    ⟨rfl, by decide, by decide, by decide, by decide, by decide⟩⟩

/-- DATA steps that raise each class somewhere: a discard, W3's trailer, and V-PS-5. -/
theorem witness_ErrorClassesAreReportedInBand :
    (∃ t, exec (.data 0x22 (late 10) 0) one = .next t) ∧ ErrorClass.partialPacket ∈ errorsRaised .sessionReset one ∧
    ErrorClass.checksum ∈ errorsRaised (.invalidChecksum w3 0 60) five ∧
    ErrorClass.fieldCode ∈ errorsRaised (.panelStatus ⟨0x30, 0x28, 0x35, 0, 0, 0xD8⟩ 0 60) five :=
  ⟨(Laws.execAt_next Config.params (.data 0x22 (late 10) 0) one).imp fun _ h => h.1, by decide, by decide, by decide⟩

theorem witness_ConditionPriority :
    five.cnt.val = 5 ∧ five.gapFires (late 50) ∧ validate w3 = false ∧ validate w2 = true ∧
    classify Config.params (some 60) 60 = .unit ∧
    exec (.panelFeatures pf4 0 60) five = .next (after (exec (.panelFeatures pf4 0 60) five)) := by
  refine ⟨rfl, five_gapFires, by decide, by decide, ?_, rfl⟩
  have := Config.params.tickHz_pos
  rw [classify, if_pos (by unfold classificationGap; omega)]

theorem witness_FramingIgnoresByteValues :
    (streamOf [dataFrame 0x10 0 0]).sameFraming (streamOf [dataFrame 0xFF 0 0]) ∧
    List.Forall₂ Frame.sameButValue (streamOf [dataFrame 0x10 0 0]).input (streamOf [dataFrame 0xFF 0 0]).input ∧
    (∃ t, core.run 1 (streamOf [dataFrame 0x10 0 0]) = .next t) ∧
    ∃ t, core.run 1 (streamOf [dataFrame 0xFF 0 0]) = .next t :=
  ⟨⟨rfl, rfl, rfl, rfl, rfl, rfl, rfl⟩, .cons ⟨by decide, rfl, rfl⟩ .nil, ⟨_, rfl⟩, _, rfl⟩

/-- Two bytes a gap apart, at the vectors' parameters and into a state that holds one byte. -/
theorem witness_TooSmallGapMaxEmitsNothing :
    one.cnt.val ≤ 1 ∧ (∀ f ∈ [dataFrame 1 12 12, dataFrame 2 14 14], f.cmd = 1) ∧
    one.gapFiresAt Config.vectorParams (dataFrame 1 12 12).inStart ∧
    [dataFrame 1 12 12, dataFrame 2 14 14].IsChain (fun f g => f.inEnd + Config.vectorParams.gapMax < g.inStart) ∧
    one.out = .noRecord ∧
    ∃ t : State, (coreAt Config.vectorParams).run 2 { one with input := [dataFrame 1 12 12, dataFrame 2 14 14] } = .next t :=
  ⟨by decide, by decide, ⟨10, rfl, by decide⟩, by simp [dataFrame, commandFrame, Config.vectorParams], rfl, _, rfl⟩

theorem witness_TwoSecondGapAlwaysDiscards :
    one.prevEnd = some 10 ∧ 10 + 2 * Config.vectorParams.tickHz ≤ 2000010 ∧
    Config.Params.ofNumbers 64 1000000 1 = some Config.vectorParams := by decide

theorem witness_UpstreamMapping : 0 < 2 ^ Config.params.tsW := Nat.two_pow_pos _

theorem witness_ResetForgetsThePast :
    (one.input = five.input ∧ exec .sessionReset one = .next State.reset ∧
      exec .sessionReset five = .next State.reset) ∧
    ∃ t, core.run [dataFrame 0x10 0 0].length
      { State.reset with input := [dataFrame 0x10 0 0] ++ [⟨0x003, 0, 0⟩] } = .next t :=
  ⟨⟨rfl, rfl, rfl⟩, _, rfl⟩

theorem witness_EventListBlockIsEquivalent :
    (⟨[⟨0x11, 0, 10⟩], none⟩ : EventBlock).shows one ∧
    (⟨[⟨0x10, 0, 10⟩, ⟨0x28, 10, 20⟩, ⟨0x25, 20, 30⟩, ⟨0, 30, 40⟩, ⟨0, 40, 50⟩], none⟩ : EventBlock).shows five :=
  ⟨⟨rfl, rfl⟩, rfl, rfl⟩

/-- Registers that show a state, with values of no meaning in the unspecified ones. -/
theorem witness_RegisterBlockIsEquivalent :
    (⟨5, #v[0x10, 0x28, 0x25, 0, 0], 0, 50, false, 77⟩ : RegisterBlock).shows five ∧
    (⟨0, #v[9, 8, 7, 6, 5], 4, 3, false, 77⟩ : RegisterBlock).shows State.reset := ⟨⟨rfl, rfl⟩, rfl, rfl⟩

theorem witness_StepKeepsTheInvariant :
    (streamOf [⟨0x041, 0, 0⟩]).Inv ∧ step (streamOf [⟨0x041, 0, 0⟩]) = .next (stateOf (.fill1 0x10 0 0) none) :=
  ⟨⟨rfl, rfl, rfl, by simp [streamOf, State.reset, Bundle.noRecord], by simp [streamOf, State.reset, Bundle.noRecord], .inl rfl⟩,
    rfl⟩

end Sys2Proof.Tests
end

section
/-! The Source Classifier (42_classifier.md): its comparison in ticks, and the same comparison in seconds. -/

namespace Sys2Proof.Proofs.Classifier

open Sys2Proof.Machine

/-- The classifier's comparison with the anchor present, in exact integer ticks (R131). -/
theorem classify_some_eq_unit_iff (p : Config.Params) (e a : Nat) :
    classify p (some e) a = .unit ↔ 10 * ((a : Int) - e) < 3 * p.tickHz := by
  rw [classify, classificationGap]
  split <;> simp [*]

/-- A number of ticks lasts less than 0.300 s exactly when ten times it is below `3 * TICK_HZ`: a second has a positive
number of ticks, so multiplying out the two fractions keeps the strict order (R9). -/
theorem ticks_div_tickHz_lt_iff (p : Config.Params) (g : Int) :
    (g : ℚ) / p.tickHz < 3 / 10 ↔ 10 * g < 3 * p.tickHz := by
  have hz : (0 : ℚ) < p.tickHz := Nat.cast_pos.2 p.tickHz_pos
  rw [div_lt_div_iff₀ hz (by norm_num), mul_comm (g : ℚ)]
  exact_mod_cast Iff.rfl

/-- Settles O30: the comparison in ticks, with both sides divided by `10 * TICK_HZ`. -/
theorem classifierBoundaryInSeconds : Obligations.ClassifierBoundaryInSeconds := by
  intro p e a
  have hs := ticks_div_tickHz_lt_iff p ((a : Int) - e)
  push_cast at hs
  rw [hs, classify_some_eq_unit_iff]

end Sys2Proof.Proofs.Classifier
end

section
/-! The state elements and the output of the block (10_state.md): the record as a tagged union against the bundle (R33), and
the state after reset (R34). -/

namespace Sys2Proof.Proofs.RecordAndReset

open Sys2Proof.Machine

/-! ## From a record to its bundle and back -/

/-- The residual is no part of the field set. -/
@[simp] theorem fieldsOf_withUnknown (o : Bundle) (u : Option Payload) : (o.withUnknown u).fieldsOf = o.fieldsOf := by
  cases u <;> rfl

/-- The three fields that name the variant, 0 before the fields are driven, tell the field sets apart (R183). -/
theorem fieldsOf_withFields {o : Bundle} (hs : o.source = false) (hf : o.features = false) (ht : o.tempPresent = false)
    (f : Fields) : (o.withFields f).fieldsOf = f := by
  cases f with
  | unit t => cases t <;> simp [Bundle.withFields, Bundle.fieldsOf, ht]
  | panelFeatures => simp [Bundle.withFields, Bundle.fieldsOf, hs]
  | panelStatus f => simp [Bundle.withFields, Bundle.fieldsOf, hs, hf]

/-- Driving the fields leaves what every valid record carries, and the residual, as they are. -/
theorem withFields_frame (o : Bundle) (f : Fields) :
    (o.withFields f).valid = o.valid ∧ (o.withFields f).kind = o.kind ∧ (o.withFields f).startTime = o.startTime ∧
      (o.withFields f).endTime = o.endTime ∧ (o.withFields f).bytes = o.bytes ∧
      (o.withFields f).checksum = o.checksum ∧ (o.withFields f).unkPresent = o.unkPresent := by
  cases f with
  | unit t => cases t <;> exact ⟨rfl, rfl, rfl, rfl, rfl, rfl, rfl⟩
  | panelFeatures => exact ⟨rfl, rfl, rfl, rfl, rfl, rfl, rfl⟩
  | panelStatus f => exact ⟨rfl, rfl, rfl, rfl, rfl, rfl, rfl⟩

/-- A valid bundle without a residual, after the residual `u` is driven, reads as a record with exactly that residual. -/
theorem toRecord_withUnknown {o : Bundle} (hv : o.valid = true) (hk : o.kind = true) (hu : o.unkPresent = false)
    (u : Option Payload) :
    (o.withUnknown u).toRecord =
      some (.validPacket o.startTime o.endTime o.bytes.payload o.checksum o.fieldsOf.source o.fieldsOf u) := by
  rw [Bundle.toRecord, fieldsOf_withUnknown]
  cases u <;> simp [Bundle.withUnknown, hv, hk, hu]

/-- A bundle that names a valid record and no variant yet reads, once the fields `f` and the residual `u` are driven, as the
record of exactly these. -/
theorem toRecord_withFields_withUnknown {o : Bundle} (hv : o.valid = true) (hk : o.kind = true) (hs : o.source = false)
    (hf : o.features = false) (ht : o.tempPresent = false) (hu : o.unkPresent = false) (f : Fields)
    (u : Option Payload) :
    ((o.withFields f).withUnknown u).toRecord =
      some (.validPacket o.startTime o.endTime o.bytes.payload o.checksum f.source f u) := by
  obtain ⟨hvalid, hkind, hstart, hend, hbytes, hchecksum, hunk⟩ := withFields_frame o f
  rw [toRecord_withUnknown (hvalid.trans hv) (hkind.trans hk) (hunk.trans hu), fieldsOf_withFields hs hf ht, hstart,
    hend, hbytes, hchecksum]

/-- A valid record's bundle gives the record back with the source that made its fields. -/
theorem toRecord_bundle_validPacket (a e : Nat) (p : Payload) (c : Byte) (source : Source) (f : Fields)
    (u : Option Payload) :
    (Record.validPacket a e p c source f u).bundle.toRecord = some (.validPacket a e p c f.source f u) :=
  toRecord_withFields_withUnknown rfl rfl rfl rfl rfl rfl f u

/-- A consistent record is read back from the bundle it drives (R33). -/
theorem toRecord_bundle {r : Record} (h : r.consistent = true) : r.bundle.toRecord = some r := by
  cases r with
  | invalidChecksum a e raw => rfl
  | validPacket a e p c source f u =>
    have hsource : source = f.source := by simpa [Record.consistent] using h
    rw [toRecord_bundle_validPacket, hsource]

/-! ## Each column of R183 is the bundle of a record -/

theorem legalInvalid_driven {o : Bundle} (h : o.legalInvalid) : ∃ r : Record, r.consistent = true ∧ r.bundle = o := by
  obtain ⟨hcolumn, -⟩ := h
  exact ⟨.invalidChecksum o.startTime o.endTime o.bytes, rfl, hcolumn.symm⟩

theorem legalUnit_driven {o : Bundle} (h : o.legalUnit) : ∃ r : Record, r.consistent = true ∧ r.bundle = o := by
  obtain ⟨hcolumn, -⟩ := h
  refine ⟨.validPacket o.startTime o.endTime o.bytes.payload o.bytes.b5 .unit
    (.unit (if o.tempPresent then some o.roomTempHalf else none)) (some o.unk), rfl, Eq.trans ?_ hcolumn.symm⟩
  cases o.tempPresent <;> rfl

theorem legalFeatures_driven {o : Bundle} (h : o.legalFeatures) :
    ∃ r : Record, r.consistent = true ∧ r.bundle = o := by
  obtain ⟨hcolumn, -⟩ := h
  refine ⟨.validPacket o.startTime o.endTime o.bytes.payload o.bytes.b5 .panel .panelFeatures
    (if o.unkPresent then some o.unk else none), rfl, Eq.trans ?_ hcolumn.symm⟩
  cases o.unkPresent <;> rfl

theorem legalStatus_driven {o : Bundle} (h : o.legalStatus) : ∃ r : Record, r.consistent = true ∧ r.bundle = o := by
  obtain ⟨hcolumn, -⟩ := h
  exact ⟨.validPacket o.startTime o.endTime o.bytes.payload o.bytes.b5 .panel
    (.panelStatus
      { mode := o.modeCode, resistor := o.resistor, running := o.running, settingsChanged := o.settingsChanged
        roomTempHalf := o.roomTempHalf, plasma := o.plasma, fan := o.fanCode, setTemp := o.setTemp
        swivel := o.swivel, swirl := o.swirl })
    (some o.unk), rfl, hcolumn.symm⟩

/-- A bundle that R183 allows carries no record or is the bundle of a consistent one. -/
theorem legal_driven {o : Bundle} (h : o.legal) :
    o = .noRecord ∨ ∃ r : Record, r.consistent = true ∧ r.bundle = o := by
  rcases h with hnone | hinvalid | hunit | hfeatures | hstatus
  · exact .inl hnone
  · exact .inr (legalInvalid_driven hinvalid)
  · exact .inr (legalUnit_driven hunit)
  · exact .inr (legalFeatures_driven hfeatures)
  · exact .inr (legalStatus_driven hstatus)

/-- Settles O46: a record is read back from its bundle, so a bundle that some consistent record drives is the one its own
reading drives, and every column of R183 is driven by such a record. -/
theorem bundleAndRecordAreEquivalent : Obligations.BundleAndRecordAreEquivalent := by
  refine ⟨fun r => toRecord_bundle, rfl, fun o ho => ?_⟩
  rcases legal_driven ho with rfl | ⟨r, hr, rfl⟩
  · rfl
  · rw [toRecord_bundle hr]
    rfl

/-! ## The state after reset -/

theorem exec_sessionReset (s : State) : exec .sessionReset s = .next s.clearSession := rfl

/-- With the buffer empty, the anchor absent and no record driven, every element of R20 is as R34 says: the count and
`anchor_valid` are 0 and the unspecified elements have no value. -/
theorem elements_of_empty {s : State} (hbuffer : s.buffer = .empty) (hanchor : s.anchor = none)
    (hout : s.out = .noRecord) :
    s.cnt = 0 ∧ s.anchorValid = false ∧ s.out = .noRecord ∧
      s.bytes = [] ∧ s.firstStart = none ∧ s.prevEnd = none ∧ s.anchor = none := by
  simp [State.cnt, State.anchorValid, State.bytes, State.firstStart, State.prevEnd, hbuffer, hanchor, hout]

/-- Settles O53: the power-on state and the state that SESSION_RESET leaves both have an empty buffer, no anchor and no
record. -/
theorem resetState : Obligations.ResetState := by
  obtain ⟨hcnt, hvalid, hout, hbytes, hfirst, hprev, hanchor⟩ := elements_of_empty (s := State.reset) rfl rfl rfl
  exact ⟨hcnt, hvalid, hout, hbytes, hfirst, hprev, hanchor, fun s =>
    ⟨s.clearSession, exec_sessionReset s,
      elements_of_empty (Laws.clearSession_buffer s) (Laws.clearSession_anchor s) (Laws.clearSession_out s)⟩⟩

end Sys2Proof.Proofs.RecordAndReset
end

section
/-! The input command (30_encoding.md R60, R61, R73): the word's layout, the command that each code selects, and that no
word stops the block. -/

namespace Sys2Proof.Proofs.InputCommand

open Sys2Proof.Machine

/-! ## The decoder by command code -/

theorem cmd_eq_iff (f : Frame) (c : BitVec 2) : f.cmd = c ↔ f.word.toNat % 4 = c.toNat := by
  rw [← BitVec.toNat_inj, Laws.cmd_toNat]

theorem decodeFrameAt_of_cmd_idle {f : Frame} (p : Config.Params) (h : f.cmd = 0) : decodeFrameAt p f = .ok .idle := by
  simp [decodeFrameAt, h]

theorem decodeFrameAt_of_cmd_data {f : Frame} {p : Config.Params} (h : f.cmd = 1) (hfits : deliverableAt p f = true) :
    decodeFrameAt p f = .ok (.data f.value f.inStart f.inEnd) := by
  rw [deliverableAt] at hfits
  simp [decodeFrameAt, h, hfits]

theorem decodeFrameAt_of_cmd_other {f : Frame} (p : Config.Params) (h : f.cmd = 2) :
    decodeFrameAt p f = .ok .other := by
  simp [decodeFrameAt, h]

theorem decodeFrameAt_of_cmd_sessionReset {f : Frame} (p : Config.Params) (h : f.cmd = 3) :
    decodeFrameAt p f = .ok .sessionReset := by
  simp [decodeFrameAt, h]

/-- Only DATA reads the value bits and the two buses. -/
theorem decodeFrameAt_congr {f g : Frame} (p : Config.Params) (hcmd : f.cmd = g.cmd) (hdata : f.cmd ≠ 1) :
    decodeFrameAt p f = decodeFrameAt p g := by
  have hdata' : g.cmd ≠ 1 := hcmd ▸ hdata
  simp only [decodeFrameAt, hcmd, if_neg hdata']

theorem deliverableAt_iff (p : Config.Params) (f : Frame) :
    deliverableAt p f = true ↔ f.inStart < 2 ^ p.tsW ∧ f.inEnd < 2 ^ p.tsW := by
  rw [deliverableAt, Bool.and_eq_true, Laws.fits_iff, Laws.fits_iff]

/-- A frame that the buses can carry is never rejected. -/
theorem decodeFrameAt_ok_of_deliverable {p : Config.Params} {f : Frame} (h : deliverableAt p f = true) :
    ∃ i, decodeFrameAt p f = .ok i := by
  rcases Laws.decodeFrameAt_cases p f with ⟨-, hi⟩ | ⟨-, -, -, hi⟩ | ⟨-, hoff, -⟩ | ⟨-, hi⟩ | ⟨-, hi⟩
  · exact ⟨_, hi⟩
  · exact ⟨_, hi⟩
  · exact absurd (by simpa [deliverableAt] using h) hoff
  · exact ⟨_, hi⟩
  · exact ⟨_, hi⟩

/-- The one way to a DATA command: command code 1 and two timestamps that their buses can carry. -/
theorem decodeFrameAt_eq_data_iff (p : Config.Params) (f : Frame) (v : Byte) (a b : Nat) :
    decodeFrameAt p f = .ok (.data v a b) ↔
      f.cmd = 1 ∧ deliverableAt p f = true ∧ f.value = v ∧ f.inStart = a ∧ f.inEnd = b := by
  constructor
  · intro h
    rcases Laws.decodeFrameAt_cases p f with ⟨-, hi⟩ | ⟨hcmd, hstart, hend, hi⟩ | ⟨-, -, hi⟩ | ⟨-, hi⟩ | ⟨-, hi⟩
    case inr.inl =>
      cases hi.symm.trans h
      exact ⟨hcmd, by rw [deliverableAt, hstart, hend, Bool.and_self], rfl, rfl, rfl⟩
    all_goals cases hi.symm.trans h
  · rintro ⟨hcmd, hfits, rfl, rfl, rfl⟩
    exact decodeFrameAt_of_cmd_data hcmd hfits

/-! ## The step with a frame at the port -/

/-- A frame at the port that decodes to `i` is taken off the stream, and `i` runs. -/
theorem step_of_decode {s : State} {f : Frame} {rest : List Frame} {i : Instr} (hs : s.input = f :: rest)
    (hi : decodeFrameAt Config.params f = .ok i) : step s = exec i { s with input := rest } := by
  simp only [step, fetchAt, hs, hi]

/-- Of the frame at the port the step reads only what it decodes to. -/
theorem step_congr_of_decode {f g : Frame} (s : State) (rest : List Frame)
    (h : decodeFrameAt Config.params f = decodeFrameAt Config.params g) :
    step { s with input := f :: rest } = step { s with input := g :: rest } := by
  simp only [step, fetchAt, h]

theorem step_of_deliverable {s : State} {f : Frame} {rest : List Frame} (hs : s.input = f :: rest)
    (hf : deliverableAt Config.params f = true) : ∃ t, step s = .next t ∧ t.input = rest := by
  obtain ⟨i, hi⟩ := decodeFrameAt_ok_of_deliverable hf
  rw [step_of_decode hs hi, ← Laws.execAt_params]
  exact Laws.execAt_next Config.params i { s with input := rest }

/-! ## The statements -/

/-- The word of DATA with value `v` is `(v << 2) | 0b01`. -/
theorem commandWord_data (v : Byte) : commandWord v 1 = BitVec.ofNat 10 (v.toNat * 4 + 1) := by
  apply BitVec.eq_of_toNat_eq
  have := v.isLt
  rw [Laws.toNat_commandWord, BitVec.toNat_ofNat, Nat.mod_eq_of_lt (by omega)]
  rfl

/-- Settles O2: the accessors as arithmetic on the word, the one way to a DATA command, and that a deliverable frame
decodes to a command, whose `exec` leaves the stream alone. -/
theorem commandWordLayout : Obligations.CommandWordLayout := by
  refine ⟨fun f => ⟨Laws.cmd_toNat f, Laws.value_toNat f⟩, fun v a b => ?_, fun f v a b => ?_,
    fun s f rest => step_of_deliverable⟩
  · rw [encode, commandFrame, commandWord_data]
  · rw [decodeFrame, decodeFrameAt_eq_data_iff, deliverableAt_iff, cmd_eq_iff, ← BitVec.toNat_inj, Laws.value_toNat]
    constructor
    · rintro ⟨hcmd, ⟨hstart, hend⟩, hv, rfl, rfl⟩
      exact ⟨hcmd, hv.symm, rfl, rfl, hstart, hend⟩
    · rintro ⟨hcmd, hv, rfl, rfl, hstart, hend⟩
      exact ⟨hcmd, ⟨hstart, hend⟩, hv.symm, rfl, rfl⟩

/-- Settles O6: the decoder's answer for each code, run by the step; and for a code other than DATA's the answer depends
on the code alone. -/
theorem commandCodesSelectTheCommand : Obligations.CommandCodesSelectTheCommand := by
  intro s f rest hs
  refine ⟨fun hcmd => ?_, fun hcmd hstart hend => ?_, fun hcmd => ?_, fun hcmd => ?_, fun g hcmd hdata => ?_⟩
  · exact step_of_decode hs (decodeFrameAt_of_cmd_idle _ hcmd)
  · exact step_of_decode hs (decodeFrameAt_of_cmd_data hcmd ((deliverableAt_iff _ f).2 ⟨hstart, hend⟩))
  · exact step_of_decode hs (decodeFrameAt_of_cmd_other _ hcmd)
  · exact step_of_decode hs (decodeFrameAt_of_cmd_sessionReset _ hcmd)
  · rw [← step_congr_of_decode s rest (decodeFrameAt_congr _ hcmd hdata), ← hs]

/-- Settles O7: a frame on the buses is taken in every state, and two words with the same two low bits, not DATA's, decode
alike. -/
theorem everyWordIsALegalCommand : Obligations.EveryWordIsALegalCommand := by
  intro s w a b rest ha hb
  refine ⟨step_of_deliverable rfl ((deliverableAt_iff _ _).2 ⟨ha, hb⟩), fun w' a' b' hword hdata => ?_⟩
  have hcmd : (⟨w, a, b⟩ : Frame).cmd = (⟨w', a', b'⟩ : Frame).cmd := by
    rw [cmd_eq_iff, Laws.cmd_toNat, hword]
  have hne : (⟨w, a, b⟩ : Frame).cmd ≠ 1 := mt (cmd_eq_iff _ _).1 hdata
  exact (step_congr_of_decode s rest (decodeFrameAt_congr _ hcmd hne)).symm

end Sys2Proof.Proofs.InputCommand
end

section
/-! The packet (30_encoding.md R63, R72): its word, and the order in which its class is decided. -/

namespace Sys2Proof.Proofs.PacketEncoding

open Sys2Proof.Machine

/-! ## The packet word -/

/-- The upper part of an appended word counts in units of the lower part's range. -/
theorem toNat_append_eq_mul_add {m n : Nat} (x : BitVec m) (y : BitVec n) :
    (x ++ y).toNat = x.toNat * 2 ^ n + y.toNat := by
  rw [BitVec.toNat_append, Nat.shiftLeft_eq, Nat.mul_comm, ← Nat.two_pow_add_eq_or_of_lt y.isLt]

/-- The word as a number in base 256, byte 0 lowest. -/
theorem toNat_toWord (b : Packet) :
    b.toWord.toNat =
      b.b0.toNat + b.b1.toNat * 2 ^ 8 + b.b2.toNat * 2 ^ 16 + b.b3.toNat * 2 ^ 24 + b.b4.toNat * 2 ^ 32 +
        b.b5.toNat * 2 ^ 40 := by
  simp only [Packet.toWord, toNat_append_eq_mul_add]
  ring

/-- A byte of a word is a digit of its number in base 256. -/
theorem extractLsb'_byte_eq_iff (w : BitVec 48) (k : Nat) (c : Byte) :
    w.extractLsb' k 8 = c ↔ w.toNat / 2 ^ k % 256 = c.toNat := by
  rw [← BitVec.toNat_inj, BitVec.extractLsb'_toNat, Nat.shiftRight_eq_div_pow]

theorem ofWord_toWord (b : Packet) : Packet.ofWord b.toWord = b := by
  have hw := toNat_toWord b
  have h0 := b.b0.isLt
  have h1 := b.b1.isLt
  have h2 := b.b2.isLt
  have h3 := b.b3.isLt
  have h4 := b.b4.isLt
  have h5 := b.b5.isLt
  rw [Packet.ofWord, Packet.mk.injEq]
  simp only [extractLsb'_byte_eq_iff]
  omega

/-- Settles O3: the packet's word is its bytes as digits in base 256, so reading a digit gives its byte back. -/
theorem packetWordLayout : Obligations.PacketWordLayout :=
  fun b => ⟨rfl, toNat_toWord b, ofWord_toWord b⟩

/-! ## The class decode order -/

theorem validate_eq_true_iff (b : Packet) : validate b = true ↔ b.b5 = checksum b.payload := beq_iff_eq

theorem validate_eq_false_iff (b : Packet) : validate b = false ↔ b.b5 ≠ checksum b.payload := by
  rw [← Bool.not_eq_true, validate_eq_true_iff]

theorem featuresSelected_eq_true_iff (c : Byte) : featuresSelected c = true ↔ c &&& 0x90 = 0x90 := beq_iff_eq

theorem featuresSelected_eq_false_iff (c : Byte) : featuresSelected c = false ↔ c &&& 0x90 ≠ 0x90 := by
  rw [← Bool.not_eq_true, featuresSelected_eq_true_iff]

/-- The condition under which a completed packet is of a class, in the order of R72: each class but the first asks that no
class before it matches. -/
def ClassCondition (p : Config.Params) (anchor : Option Nat) (b : Packet) (a : Nat) (c : PacketClass) : Prop :=
  match c with
  | .invalidChecksum => b.b5 ≠ checksum b.payload
  | .unitResponse => b.b5 = checksum b.payload ∧ classify p anchor a = .unit
  | .panelFeatures => b.b5 = checksum b.payload ∧ classify p anchor a = .panel ∧ b.b0 &&& 0x90 = 0x90
  | .panelStatus => b.b5 = checksum b.payload ∧ classify p anchor a = .panel ∧ b.b0 &&& 0x90 ≠ 0x90

/-- The class that the decoder answers meets its condition. -/
theorem classCondition_packetClass (p : Config.Params) (anchor : Option Nat) (b : Packet) (a : Nat) :
    ClassCondition p anchor b a (packetClass p anchor b a) := by
  rcases Laws.packetClass_cases p anchor b a with ⟨hc, hv⟩ | ⟨hc, hv, hs⟩ | ⟨hc, hv, hs, hf⟩ | ⟨hc, hv, hs, hf⟩ <;>
    rw [hc]
  · exact (validate_eq_false_iff b).1 hv
  · exact ⟨(validate_eq_true_iff b).1 hv, hs⟩
  · exact ⟨(validate_eq_true_iff b).1 hv, hs, (featuresSelected_eq_true_iff _).1 hf⟩
  · exact ⟨(validate_eq_true_iff b).1 hv, hs, (featuresSelected_eq_false_iff _).1 hf⟩

/-- A packet that meets the condition of a class is given that class. -/
theorem packetClass_of_classCondition {p : Config.Params} {anchor : Option Nat} {b : Packet} {a : Nat}
    {c : PacketClass} (h : ClassCondition p anchor b a c) : packetClass p anchor b a = c := by
  cases c with
  | invalidChecksum => rw [packetClass, if_pos ((validate_eq_false_iff b).2 h)]
  | unitResponse =>
    obtain ⟨hv, hs⟩ := h
    simp [packetClass, (validate_eq_true_iff b).2 hv, hs]
  | panelFeatures =>
    obtain ⟨hv, hs, hf⟩ := h
    simp [packetClass, (validate_eq_true_iff b).2 hv, hs, (featuresSelected_eq_true_iff _).2 hf]
  | panelStatus =>
    obtain ⟨hv, hs, hf⟩ := h
    simp [packetClass, (validate_eq_true_iff b).2 hv, hs, (featuresSelected_eq_false_iff _).2 hf]

theorem packetClass_eq_iff (p : Config.Params) (anchor : Option Nat) (b : Packet) (a : Nat) (c : PacketClass) :
    packetClass p anchor b a = c ↔ ClassCondition p anchor b a c :=
  ⟨fun h => h ▸ classCondition_packetClass p anchor b a, packetClass_of_classCondition⟩

/-- Different classes are different instructions. -/
theorem classInstr_inj {c d : PacketClass} {b : Packet} {a e : Nat} :
    classInstr c b a e = classInstr d b a e ↔ c = d := by
  cases c <;> cases d <;> simp [classInstr]

theorem decodePacket_eq_classInstr_iff (anchor : Option Nat) (b : Packet) (a e : Nat) (c : PacketClass) :
    decodePacket anchor b a e = classInstr c b a e ↔ ClassCondition Config.params anchor b a c := by
  rw [decodePacket, decodePacketAt, classInstr_inj, packetClass_eq_iff]

/-- Settles O8: a packet decodes to a class exactly when it meets the class's condition. -/
theorem packetClassDecodeOrder : Obligations.PacketClassDecodeOrder := by
  intro anchor b a e
  have h := decodePacket_eq_classInstr_iff anchor b a e
  exact ⟨h .invalidChecksum, h .unitResponse, h .panelFeatures, h .panelStatus⟩

end Sys2Proof.Proofs.PacketEncoding
end

section
/-! The fields of a payload (30_encoding.md R67 to R69): the mode and fan-speed tables by their masked keys, and the
assembled operands with their ranges. -/

namespace Sys2Proof.Proofs.PayloadFields

open Sys2Proof.Machine

/-! ## The masked key of a byte: bits 6..4 -/

/-- The mask 0x70 keeps bits 6..4 in place. -/
theorem and_0x70_eq_shiftLeft (c : Byte) : c &&& (0x70 : Byte) = (c.extractLsb' 4 3).setWidth 8 <<< 4 := by
  ext k hk
  interval_cases k <;> simp

/-- The key is 16 times the 3-bit code. -/
theorem toNat_and_0x70 (c : Byte) : (c &&& 0x70).toNat = (c.extractLsb' 4 3).toNat * 16 := by
  have := (c.extractLsb' 4 3).isLt
  rw [and_0x70_eq_shiftLeft, BitVec.toNat_shiftLeft, BitVec.toNat_setWidth_of_le (by decide), Nat.shiftLeft_eq,
    Nat.mod_eq_of_lt (by omega)]

/-- A key is in a table's row exactly when the code is the row's code. -/
theorem and_0x70_eq_iff {key : Byte} {code : BitVec 3} (h : key.toNat = code.toNat * 16) (c : Byte) :
    c &&& 0x70 = key ↔ c.extractLsb' 4 3 = code := by
  rw [← BitVec.toNat_inj, ← BitVec.toNat_inj, toNat_and_0x70]
  omega

/-! ## The tables -/

/-- The codes that both tables name (R67, R68). -/
def namedCodes : List (BitVec 3) := [0, 1, 2, 4]

theorem modeKnown_iff (code : BitVec 3) : modeKnown code = true ↔ code ∈ namedCodes := by
  revert code
  decide

theorem fanKnown_iff (code : BitVec 3) : fanKnown code = true ↔ code ∈ namedCodes := by
  revert code
  decide

/-- A code has a name exactly when its key is one of the four keys of the tables. -/
theorem mem_namedCodes_iff (c : Byte) :
    c.extractLsb' 4 3 ∈ namedCodes ↔ (c &&& 0x70).toNat ∈ [0x00, 0x10, 0x20, 0x40] := by
  rw [toNat_and_0x70]
  simp only [namedCodes, List.mem_cons, List.not_mem_nil, or_false, ← BitVec.toNat_inj, BitVec.ofNat_eq_ofNat,
    BitVec.toNat_ofNat]
  omega

/-- A table by code is the same table by masked key. -/
theorem ite_code_eq_ite_key {α : Type} (c : Byte) (row0 row1 row2 row4 unnamed : α) :
    (if c.extractLsb' 4 3 = 0 then row0 else if c.extractLsb' 4 3 = 1 then row1
      else if c.extractLsb' 4 3 = 2 then row2 else if c.extractLsb' 4 3 = 4 then row4 else unnamed) =
    if c &&& 0x70 = 0x00 then row0 else if c &&& 0x70 = 0x10 then row1
      else if c &&& 0x70 = 0x20 then row2 else if c &&& 0x70 = 0x40 then row4 else unnamed :=
  if_congr (and_0x70_eq_iff rfl c).symm rfl <| if_congr (and_0x70_eq_iff rfl c).symm rfl <|
    if_congr (and_0x70_eq_iff rfl c).symm rfl <| if_congr (and_0x70_eq_iff rfl c).symm rfl rfl

/-- Settles O41: a masked key is 16 times its code, so the rows by key are the rows by code. -/
theorem modeAndFanTables : Obligations.ModeAndFanTables := fun p =>
  ⟨ite_code_eq_ite_key p.p0 _ _ _ _ _, ite_code_eq_ite_key p.p2 _ _ _ _ _, toNat_and_0x70 p.p0, toNat_and_0x70 p.p2,
    (modeKnown_iff _).trans (mem_namedCodes_iff p.p0), (fanKnown_iff _).trans (mem_namedCodes_iff p.p2)⟩

/-! ## The operands as arithmetic on the bytes -/

/-- Nine bits hold every `p[1] + 20`. -/
theorem toNat_roomTempHalf (p : Payload) : (roomTempHalf p).toNat = p.p1.toNat + 20 := by
  have hlt : p.p1.toNat + 20 < 2 ^ 9 := by have := p.p1.isLt; omega
  rw [roomTempHalf, BitVec.toNat_add, BitVec.toNat_setWidth_of_le (by decide)]
  exact Nat.mod_eq_of_lt hlt

/-- Five bits hold every `p[2] mod 16 + 16`. -/
theorem toNat_setTemp (p : Payload) : (setTemp p).toNat = p.p2.toNat % 16 + 16 := by
  have hlow : (p.p2.extractLsb' 0 4).toNat = p.p2.toNat % 16 := by simp
  have hlt : p.p2.toNat % 16 + 16 < 2 ^ 5 := by omega
  rw [setTemp, BitVec.toNat_add, BitVec.toNat_setWidth_of_le (by decide), hlow]
  exact Nat.mod_eq_of_lt hlt

theorem toNat_extractLsb'_code (c : Byte) : (c.extractLsb' 4 3).toNat = c.toNat / 16 % 8 := by
  rw [BitVec.extractLsb'_toNat, Nat.shiftRight_eq_div_pow]

/-- The no-reading flag is clear exactly for the bytes below 128. -/
theorem noReading_eq_false_iff (c : Byte) : noReading c = false ↔ c.toNat < 128 := by
  rw [noReading, ← BitVec.msb_eq_getLsbD_last (x := c), BitVec.msb_eq_false_iff_two_mul_lt]
  omega

/-! ## What a packet class drives -/

/-- A packet class's step drives its record's bundle. -/
theorem out_of_exec_classInstr {c : PacketClass} {b : Packet} {a e : Nat} {s t : State}
    (h : exec (classInstr c b a e) s = .next t) : t.out = (classRecord c b a e).bundle := by
  rw [Laws.exec_classInstr] at h
  cases h
  exact Laws.completePacket_out s _ e

/-- A Unit record has the temperature of `p[1]` unless the no-reading flag is set (R140). -/
theorem classRecord_unitResponse (b : Packet) (a e : Nat) :
    classRecord .unitResponse b a e =
      .validPacket a e b.payload b.b5 .unit
        (.unit (if noReading b.b1 = false then some (roomTempHalf b.payload) else none))
        (some (unitResidual b.payload (!noReading b.b1))) := by
  have hp1 : b.payload.p1 = b.b1 := rfl
  simp [classRecord, validRecord, decodeUnit, hp1]

/-- The temperature that a Unit record drives is the one it has (R183). -/
theorem roomTempHalf_of_unit_bundle {a e : Nat} {p : Payload} {trailer : Byte} {source : Source}
    {temp : Option (BitVec 9)} {residual : Payload}
    (h : (Record.validPacket a e p trailer source (.unit temp) (some residual)).bundle.tempPresent = true) :
    temp = some (Record.validPacket a e p trailer source (.unit temp) (some residual)).bundle.roomTempHalf := by
  cases temp with
  | none => exact absurd h Bool.false_ne_true
  | some temp => rfl

/-- A Unit record that reports a temperature reports that of a byte below 128. -/
theorem unitResponse_operand {b : Packet} {a e : Nat}
    (h : (classRecord .unitResponse b a e).bundle.tempPresent = true) :
    b.b1.toNat < 128 ∧ (classRecord .unitResponse b a e).bundle.roomTempHalf.toNat = b.b1.toNat + 20 := by
  rw [classRecord_unitResponse] at h ⊢
  obtain ⟨hflag, htemp⟩ := Option.ite_none_right_eq_some.1 (roomTempHalf_of_unit_bundle h)
  rw [← Option.some.inj htemp]
  exact ⟨(noReading_eq_false_iff _).1 hflag, toNat_roomTempHalf b.payload⟩

/-- Settles O40: a status record's fields are its payload's operands, and a Unit record's temperature is the same operand
of a byte below 128. -/
theorem assembledOperandRanges : Obligations.AssembledOperandRanges := by
  intro s t u b a e ht hu
  rw [out_of_exec_classInstr (c := .unitResponse) ht, out_of_exec_classInstr (c := .panelStatus) hu]
  have htemp : (classRecord .panelStatus b a e).bundle.roomTempHalf.toNat = b.b1.toNat + 20 :=
    toNat_roomTempHalf b.payload
  have hset : (classRecord .panelStatus b a e).bundle.setTemp.toNat = b.b2.toNat % 16 + 16 := toNat_setTemp b.payload
  have hbyte := b.b1.isLt
  refine ⟨fun hpresent => ?_, by omega, by omega, by omega, by omega, fun hpresent => (unitResponse_operand hpresent).2,
    htemp, hset, toNat_extractLsb'_code b.b0, toNat_extractLsb'_code b.b2, rfl, rfl, rfl, rfl, rfl, rfl⟩
  obtain ⟨hsmall, hoperand⟩ := unitResponse_operand hpresent
  omega

end Sys2Proof.Proofs.PayloadFields
end

section
/-! The Frame Aggregator (40_frame_aggregator.md R100 to R109): the four commands on the state's elements, the gap test, and
six bytes run to one record. -/

namespace Sys2Proof.Proofs.FrameAggregator

open Sys2Proof.Machine
open Sys2Proof.Proofs.InputCommand

/-! ## IDLE and OTHER, and packets without an anchor -/

/-- The whole effect of IDLE (R100). -/
theorem exec_idle (s : State) : exec .idle s = .next { s with out := .noRecord } := rfl

/-- The whole effect of OTHER (R101). -/
theorem exec_other (s : State) : exec .other s = .next { s with out := .noRecord } := rfl

/-- The classifier answers Unit only against an anchor (R131). -/
theorem classify_none_ne_unit (p : Config.Params) (a : Nat) : classify p none a ≠ .unit := Source.noConfusion

/-- A packet completed while the anchor is absent is not a UNIT_RESPONSE. -/
theorem decodePacket_none_ne_unitResponse (b : Packet) (a e : Nat) : decodePacket none b a e ≠ .unitResponse b a e := by
  intro h
  obtain ⟨-, hunit⟩ := (PacketEncoding.decodePacket_eq_classInstr_iff none b a e .unitResponse).1 h
  exact classify_none_ne_unit _ _ hunit

/-! ## What DATA does, by the outcome of its append -/

/-- A DATA byte that the append holds extends the partial packet. -/
theorem exec_data_of_held {v : Byte} {a b : Nat} {s : State} {l : Buffer}
    (h : (s.buffer.afterGapTest Config.params a).append v a b = .held l) :
    exec (.data v a b) s = .next (s.hold l) := by
  change execDataAt Config.params v a b s = _
  rw [execDataAt, h]

/-- The class instruction that a completed packet decodes to consumes the packet with its class's record. -/
theorem exec_decodePacket (anchor : Option Nat) (q : Packet) (a e : Nat) (s : State) :
    exec (decodePacket anchor q a e) s =
      .next (s.completePacket (classRecord (packetClass Config.params anchor q a) q a e) e) :=
  Laws.exec_classInstr _ q a e s

/-- A DATA byte that completes a packet runs the packet's class. -/
theorem exec_data_of_complete {v : Byte} {a b t e : Nat} {s : State} {q : Packet}
    (h : (s.buffer.afterGapTest Config.params a).append v a b = .complete q t e) :
    exec (.data v a b) s = exec (decodePacket s.anchor q t e) s := by
  change execDataAt Config.params v a b s = _
  rw [execDataAt, h, exec_decodePacket]
  exact Laws.emitPacket_eq Config.params q t e s

/-- DATA does not read the bundle of the step before it (R186). -/
theorem exec_data_congr_out (v : Byte) (a b : Nat) (s : State) (o : Bundle) :
    exec (.data v a b) { s with out := o } = exec (.data v a b) s := by
  rcases happend : (s.buffer.afterGapTest Config.params a).append v a b with l | ⟨q, t, e⟩
  · rw [exec_data_of_held happend, exec_data_of_held (s := { s with out := o }) happend]
    rfl
  · rw [exec_data_of_complete happend, exec_data_of_complete (s := { s with out := o }) happend,
      exec_decodePacket, exec_decodePacket]
    rfl

/-! ## The gap test -/

/-- The gap test with `cnt > 0`: a comparison with the end of the last buffered byte (R103). -/
theorem gapFiresAt_iff_of_prevEnd {p : Config.Params} {s : State} {e : Nat} (h : s.prevEnd = some e) (a : Nat) :
    s.gapFiresAt p a ↔ e + p.gapMax < a := by
  simp only [State.gapFiresAt, h, Option.some.injEq, exists_eq_left']
  omega

/-- Without a buffered byte there is nothing to test against (R106). -/
theorem not_gapFiresAt_of_prevEnd_eq_none {p : Config.Params} {s : State} (h : s.prevEnd = none) (a : Nat) :
    ¬ s.gapFiresAt p a := by
  simp [State.gapFiresAt, h]

/-- An append to no buffered byte sees the empty buffer. -/
theorem afterGapTest_of_prevEnd_eq_none {s : State} (h : s.prevEnd = none) (p : Config.Params) (a : Nat) :
    s.buffer.afterGapTest p a = .empty := by
  rw [Laws.afterGapTest_of_not (not_gapFiresAt_of_prevEnd_eq_none h a)]
  exact (Laws.prevEnd_eq_none_iff s.buffer).1 h

/-- A byte that starts at most `GAP_MAX` after the last one finds the whole buffer. -/
theorem afterGapTest_of_le {p : Config.Params} {s : State} {a e : Nat} (h : s.prevEnd = some e)
    (hgap : a ≤ e + p.gapMax) : s.buffer.afterGapTest p a = s.buffer :=
  Laws.afterGapTest_of_not (mt (gapFiresAt_iff_of_prevEnd h a).1 (Nat.not_lt.2 hgap))

/-- What the gap test leaves is the whole buffer or nothing. -/
theorem afterGapTest_cases (p : Config.Params) (k : Buffer) (a : Nat) :
    k.afterGapTest p a = .empty ∨ k.afterGapTest p a = k := by
  rw [Buffer.afterGapTest]
  exact ite_eq_or_eq _ _ _

/-- A DATA byte on an empty buffer starts one with its own times. -/
theorem exec_data_of_empty {s : State} (h : s.cnt = 0) (v : Byte) (a b : Nat) :
    exec (.data v a b) s = .next (s.hold (.fill1 v a b)) := by
  have hprev : s.prevEnd = none := (Laws.prevEnd_eq_none_iff _).2 ((Laws.cnt_eq_zero_iff _).1 h)
  exact exec_data_of_held (congrArg (Buffer.append · v a b) (afterGapTest_of_prevEnd_eq_none hprev _ a))

/-- Settles O19: the append to the empty buffer. -/
theorem emptyBufferIsNeverGapTested : Obligations.EmptyBufferIsNeverGapTested :=
  fun v a b _ hcnt => ⟨_, exec_data_of_empty hcnt v a b, rfl, rfl, rfl, rfl, rfl, rfl⟩

/-- Where the gap test does not fire, every buffered byte is kept: in the longer buffer or, as the first five of six, in the
record. -/
theorem exec_data_keeps_bytes_of_not_fires (v : Byte) (a b : Nat) (s : State)
    (h : ¬ s.gapFiresAt Config.params a) :
    ∃ t, exec (.data v a b) s = .next t ∧ (s.cnt.val < 5 → t.bytes = s.bytes ++ [v]) ∧
      (s.cnt.val = 5 → packetBytes t.out.bytes = s.bytes ++ [v] ∧ t.out.valid = true) := by
  rcases Nat.lt_or_ge s.cnt.val 5 with hcnt | hcnt
  · obtain ⟨l, hexec, hbytes, -⟩ := Laws.execDataAt_hold Config.params v a b s h hcnt
    exact ⟨_, hexec, fun _ => hbytes, fun hfive => absurd hcnt (by omega)⟩
  · obtain ⟨q, t, hbytes, -, hexec⟩ := Laws.execDataAt_complete Config.params v a b s h (by omega)
    obtain ⟨hvalid, hpacket, -⟩ := Laws.classRecord_bundle (packetClass Config.params s.anchor q t) q t b
    refine ⟨_, hexec, fun hless => absurd hless (by omega), fun _ => ?_⟩
    rw [Laws.completePacket_out, hpacket]
    exact ⟨hbytes, hvalid⟩

/-- Settles O17: the two hypotheses are the gap test firing and not firing. -/
theorem gapTestIsExactAndStrict : Obligations.GapTestIsExactAndStrict := by
  intro v a b s
  refine ⟨fun e he hgap => ⟨_, Laws.execDataAt_discard Config.params v a b s ⟨e, he, hgap⟩, rfl, rfl, rfl⟩,
    fun hle => exec_data_keeps_bytes_of_not_fires v a b s ?_⟩
  rintro ⟨e, he, hgap⟩
  exact absurd (hle e he) (by omega)

/-! ## The pseudocode of DATA -/

/-- The `kept` bytes of the pseudocode are those that the gap test leaves. -/
theorem kept_eq_bytes_afterGapTest {p : Config.Params} {s : State} {a : Nat} {kept : List Byte}
    (hfires : ∀ e, s.prevEnd = some e → e + p.gapMax < a → kept = [])
    (hnot : ∀ e, s.prevEnd = some e → ¬ e + p.gapMax < a → kept = s.bytes)
    (hnone : s.prevEnd = none → kept = []) :
    kept = (s.buffer.afterGapTest p a).bytes := by
  rcases hprev : s.prevEnd with _ | e
  · rw [hnone hprev, afterGapTest_of_prevEnd_eq_none hprev, Laws.bytes_empty]
  · by_cases hgap : e + p.gapMax < a
    · rw [hfires e hprev hgap, Laws.afterGapTest_of_fires ((gapFiresAt_iff_of_prevEnd hprev a).2 hgap),
        Laws.bytes_empty]
    · rw [hnot e hprev hgap, afterGapTest_of_le hprev (Nat.not_lt.1 hgap), State.bytes]

/-- Only the empty buffer has no bytes. -/
theorem bytes_eq_nil_iff (k : Buffer) : k.bytes = [] ↔ k = .empty := by
  rw [← List.length_eq_zero_iff, Laws.bytes_length, ← Laws.cnt_eq_zero_iff, Fin.ext_iff]
  rfl

/-- `first` of the pseudocode: this byte's start for an empty buffer, and `first_start` for any other. -/
theorem first_eq_firstStart_afterGapTest (p : Config.Params) (s : State) (a : Nat) :
    (if (s.buffer.afterGapTest p a).bytes = [] then some a else s.firstStart) =
      some ((s.buffer.afterGapTest p a).firstStart.getD a) := by
  rcases eq_or_ne (s.buffer.afterGapTest p a) .empty with hempty | hne
  · rw [hempty]
    rfl
  · have hkept : s.buffer.afterGapTest p a = s.buffer := (afterGapTest_cases p s.buffer a).resolve_left hne
    rw [if_neg (mt (bytes_eq_nil_iff _).1 hne), hkept, State.firstStart]
    rw [hkept] at hne
    obtain ⟨t, ht⟩ := Option.ne_none_iff_exists'.1 (mt (Laws.firstStart_eq_none_iff _).1 hne)
    rw [ht, Option.getD_some]

/-- Settles O16: `kept` and `first` are the bytes and the start of the buffer that the gap test leaves, and the append
either holds the byte or completes the packet. -/
theorem dataFollowsThePseudocode : Obligations.DataFollowsThePseudocode := by
  refine ⟨fun f hcmd => decodeFrameAt_of_cmd_data ((cmd_eq_iff f 1).2 hcmd), ?_⟩
  intro v a b s kept first hfires hnot hnone hfirst
  obtain rfl := kept_eq_bytes_afterGapTest hfires hnot hnone
  rw [first_eq_firstStart_afterGapTest] at hfirst
  rw [Laws.bytes_length]
  refine ⟨fun hless => ?_, fun hfive => ?_⟩
  · obtain ⟨l, happend, hbytes, hcnt, hstart, hend⟩ := Laws.append_held _ v a b hless
    exact ⟨_, exec_data_of_held happend, hbytes, hcnt, hstart.trans hfirst.symm, hend, rfl, rfl, rfl⟩
  · have hcnt : (s.buffer.afterGapTest Config.params a).cnt.val = 5 := by omega
    obtain ⟨q, t, happend, hbytes, hstart⟩ := Laws.append_complete _ v a b hcnt
    have hexec := exec_data_of_complete happend
    rw [hstart, Option.getD_some] at hfirst
    exact ⟨q, t, _, hbytes, hfirst, hexec, hexec.trans (exec_decodePacket _ q t b s), rfl, rfl, rfl⟩

/-! ## Runs -/

/-- A run that ends in a next state goes on with the step from there. -/
theorem run_snoc (M : Host.Core) {k : Nat} {s t : M.State} (h : M.run k s = .next t) : M.run (k + 1) s = M.step t := by
  induction k generalizing s with
  | zero =>
    cases h
    simp only [Host.Core.run]
    cases M.step t <;> rfl
  | succ k ih =>
    rw [Host.Core.run] at h ⊢
    cases hs : M.step s with
    | next u =>
      rw [hs] at h
      exact ih h
    | fault r => simp [hs] at h
    | refused r => simp [hs] at h

theorem core_run_snoc {k : Nat} {s t : State} (h : core.run k s = .next t) : core.run (k + 1) s = step t :=
  run_snoc core h

/-! ## IDLE, OTHER and SESSION_RESET -/

/-- IDLE frames only take themselves off the stream and drive no record. -/
theorem state_of_run_idle {n : Nat} {s t : State} (hs : s.input = List.replicate n ⟨0, 0, 0⟩)
    (ht : core.run n s = .next t) : ∃ o : Bundle, t = { s with input := [], out := o } := by
  induction n generalizing s with
  | zero =>
    cases ht
    exact ⟨t.out, congrArg (fun l => { t with input := l }) hs⟩
  | succ n ih =>
    have hstep := step_of_decode hs (decodeFrameAt_of_cmd_idle _ rfl)
    rw [Laws.core_run_succ _ _ _ (hstep.trans (exec_idle _))] at ht
    exact ih (s := { s with input := List.replicate n ⟨0, 0, 0⟩, out := .noRecord }) rfl ht

/-- Settles O13: IDLE frames change nothing but the stream and the bundle, which DATA does not read. -/
theorem idleChangesNothing : Obligations.IdleChangesNothing := by
  refine ⟨fun f hcmd => decodeFrameAt_of_cmd_idle _ ((cmd_eq_iff f 0).2 hcmd), exec_idle, ?_⟩
  intro n s t v a b hs ht
  obtain ⟨o, rfl⟩ := state_of_run_idle hs ht
  exact exec_data_congr_out v a b { s with input := [] } o

/-- Settles O14: OTHER changes nothing but the bundle, which DATA does not read. -/
theorem otherIsIgnored : Obligations.OtherIsIgnored := by
  refine ⟨fun f hcmd => decodeFrameAt_of_cmd_other _ ((cmd_eq_iff f 2).2 hcmd), exec_other, ?_⟩
  intro s t v a b ht
  cases ht
  exact exec_data_congr_out v a b s .noRecord

/-- Settles O15: with the anchor absent the classifier does not answer Unit. -/
theorem sessionResetClears : Obligations.SessionResetClears := by
  refine ⟨fun f hcmd => decodeFrameAt_of_cmd_sessionReset _ ((cmd_eq_iff f 3).2 hcmd),
    RecordAndReset.exec_sessionReset, ?_⟩
  intro s t b a e ht
  cases ht
  exact decodePacket_none_ne_unitResponse b a e

/-! ## Six bytes -/

/-- A DATA frame at the port runs as DATA. -/
theorem step_of_dataFrame {s : State} {v : Byte} {a b : Nat} {rest : List Frame}
    (hs : s.input = dataFrame v a b :: rest) (hf : deliverableAt Config.params (dataFrame v a b) = true) :
    step s = exec (.data v a b) { s with input := rest } :=
  step_of_decode hs ((decodeFrameAt_eq_data_iff _ _ v a b).2
    ⟨Laws.cmd_commandFrame v 1 a b, hf, Laws.value_commandFrame v 1 a b, rfl, rfl⟩)

/-- `s` after some bytes of a packet: the partial packet `k`, no record, and the frames `rest` still to come. -/
def holding (s : State) (k : Buffer) (rest : List Frame) : State := { s.hold k with input := rest }

/-- A DATA frame on an empty buffer: the run holds its byte. -/
theorem run_one_holding {s : State} {v : Byte} {a b : Nat} {rest : List Frame} (hcnt : s.cnt = 0)
    (hs : s.input = dataFrame v a b :: rest) (hf : deliverableAt Config.params (dataFrame v a b) = true) :
    core.run 1 s = .next (holding s (.fill1 v a b) rest) := by
  rw [core_run_snoc (k := 0) rfl, step_of_dataFrame hs hf]
  exact exec_data_of_empty (s := { s with input := rest }) hcnt v a b

/-- A run that holds a partial packet goes on to hold the next byte that no gap separates from it. -/
theorem run_succ_holding {n : Nat} {s u : State} {k l : Buffer} {v : Byte} {a b e : Nat} {rest : List Frame}
    (hrun : core.run n s = .next (holding u k (dataFrame v a b :: rest)))
    (hf : deliverableAt Config.params (dataFrame v a b) = true) (hk : k.prevEnd = some e)
    (hgap : a ≤ e + Config.params.gapMax) (hl : k.append v a b = .held l) :
    core.run (n + 1) s = .next (holding u l rest) := by
  rw [core_run_snoc hrun, step_of_dataFrame rfl hf]
  have hkept := afterGapTest_of_le (s := holding u k rest) hk hgap
  exact exec_data_of_held ((congrArg (Buffer.append · v a b) hkept).trans hl)

/-- A run that holds five bytes completes the packet with a sixth that no gap separates from them. -/
theorem run_succ_complete {n : Nat} {s u : State} {k : Buffer} {v : Byte} {a b e t : Nat} {q : Packet}
    {rest : List Frame} (hrun : core.run n s = .next (holding u k (dataFrame v a b :: rest)))
    (hf : deliverableAt Config.params (dataFrame v a b) = true) (hk : k.prevEnd = some e)
    (hgap : a ≤ e + Config.params.gapMax) (hq : k.append v a b = .complete q t b) :
    core.run (n + 1) s = exec (decodePacket u.anchor q t b) { u with input := rest } := by
  rw [core_run_snoc hrun, step_of_dataFrame rfl hf]
  have hkept := afterGapTest_of_le (s := holding u k rest) hk hgap
  refine (exec_data_of_complete ((congrArg (Buffer.append · v a b) hkept).trans hq)).trans ?_
  rw [exec_decodePacket, exec_decodePacket]
  rfl

/-- Settles O22: each of the first five steps holds one more byte, and the sixth runs the class of the packet. -/
theorem sixBytesGiveOneRecord : Obligations.SixBytesGiveOneRecord := by
  intro s p a0 e0 a1 e1 a2 e2 a3 e3 a4 e4 a5 e5 rest hcnt hs hf hgap1 hgap2 hgap3 hgap4 hgap5
  simp only [List.cons_append, List.nil_append] at hs
  simp only [hs, List.take_succ_cons, List.take_zero, List.forall_mem_cons] at hf
  obtain ⟨hf0, hf1, hf2, hf3, hf4, hf5, -⟩ := hf
  have hrun1 := run_one_holding hcnt hs hf0
  have hrun2 := run_succ_holding hrun1 hf1 rfl hgap1 rfl
  have hrun3 := run_succ_holding hrun2 hf2 rfl hgap2 rfl
  have hrun4 := run_succ_holding hrun3 hf3 rfl hgap3 rfl
  have hrun5 := run_succ_holding hrun4 hf4 rfl hgap4 rfl
  have hrun6 : core.run 6 s = exec (decodePacket s.anchor p a0 e5) { s with input := rest } :=
    run_succ_complete hrun5 hf5 rfl hgap5 rfl
  refine ⟨fun k hk hk5 => ?_, hrun6, ?_⟩
  · interval_cases k
    · exact ⟨_, hrun1, rfl, rfl, rfl⟩
    · exact ⟨_, hrun2, rfl, rfl, rfl⟩
    · exact ⟨_, hrun3, rfl, rfl, rfl⟩
    · exact ⟨_, hrun4, rfl, rfl, rfl⟩
    · exact ⟨_, hrun5, rfl, rfl, rfl⟩
  · exact ⟨_, hrun6.trans (exec_decodePacket _ p a0 e5 _), rfl, rfl, rfl,
      Laws.classRecord_bundle _ p a0 e5⟩

end Sys2Proof.Proofs.FrameAggregator
end

section
/-! The Checksum Validator (41_checksum.md): the checksum as a sum over the list of payload bytes, and what a packet that
fails validation does. -/

namespace Sys2Proof.Proofs.ChecksumValidator

open Sys2Proof.Machine

/-! ## The checksum -/

/-- The bytes enter the checksum only through their sum (R120). -/
theorem checksum_eq_sum_payloadBytes (p : Payload) : checksum p = (payloadBytes p).sum ^^^ Config.chkMask := by
  simp [checksum, payloadBytes, add_assoc]

/-- Byte addition along a list drops the carries past bit 7 once, at the end. -/
theorem toNat_sum_bytes (l : List Byte) : l.sum.toNat = (l.map BitVec.toNat).sum % 256 := by
  induction l with
  | nil => rfl
  | cons v l ih =>
    rw [List.sum_cons, List.map_cons, List.sum_cons, BitVec.toNat_add, ih]
    exact Nat.add_mod_mod _ _ _

/-- Settles O26: the sum of a list does not depend on its order. -/
theorem checksumIgnoresOrder : Obligations.ChecksumIgnoresOrder := by
  intro p q hperm
  rw [checksum_eq_sum_payloadBytes, checksum_eq_sum_payloadBytes, hperm.sum_eq]

/-- Settles O25: the sum of the bytes as a number, under the mask. -/
theorem checksumFormula : Obligations.ChecksumFormula := by
  intro p
  have hsum : ((payloadBytes p).map BitVec.toNat).sum =
      p.p0.toNat + p.p1.toNat + p.p2.toNat + p.p3.toNat + p.p4.toNat := by
    simp [payloadBytes, Nat.add_assoc]
  rw [checksum_eq_sum_payloadBytes, BitVec.toNat_xor, toNat_sum_bytes, hsum]
  rfl

/-! ## A packet that fails validation -/

/-- A wrong trailer decides the class before the anchor is read (R72, R123). -/
theorem decodePacket_of_wrong_trailer {b : Packet} (h : b.b5 ≠ checksum b.payload) (anchor : Option Nat) (a e : Nat) :
    decodePacket anchor b a e = .invalidChecksum b a e :=
  (PacketEncoding.decodePacket_eq_classInstr_iff anchor b a e .invalidChecksum).2 h

/-- INVALID_CHECKSUM reads no field of the packet: its record is the bytes and the times (R181). -/
theorem exec_invalidChecksum (b : Packet) (a e : Nat) (s : State) :
    exec (.invalidChecksum b a e) s = .next (s.completePacket (.invalidChecksum a e b) e) :=
  Laws.exec_classInstr .invalidChecksum b a e s

/-- Settles O28: for every anchor the packet runs INVALID_CHECKSUM. -/
theorem invalidPacketIsNotDecoded : Obligations.InvalidPacketIsNotDecoded := by
  intro s b a e htrailer
  rw [decodePacket_of_wrong_trailer htrailer, exec_invalidChecksum]
  rfl

end Sys2Proof.Proofs.ChecksumValidator
end

section
/-! The Source Classifier at its boundary (42_classifier.md R131, R132): each side of the comparison in ticks, the gap of
300 ms, and the anchor that an invalid packet leaves. -/

namespace Sys2Proof.Proofs.ClassifierBoundary

open Sys2Proof.Machine
open Sys2Proof.Proofs.Classifier

/-! ## The comparison -/

/-- With no packet before it, a valid packet comes from the Panel (R131). -/
theorem classify_none_eq_panel (p : Config.Params) (a : Nat) : classify p none a = .panel := rfl

/-- There are two sources. -/
theorem source_eq_panel_iff (c : Source) : c = .panel ↔ c ≠ .unit := by
  cases c <;> decide

/-- The other side of the comparison with the anchor present (R131). -/
theorem classify_some_eq_panel_iff (p : Config.Params) (e a : Nat) :
    classify p (some e) a = .panel ↔ ¬ 10 * ((a : Int) - e) < 3 * p.tickHz := by
  rw [source_eq_panel_iff, Ne, classify_some_eq_unit_iff]

/-- Settles O29: the two sides of the comparison. -/
theorem classifierComparison : Obligations.ClassifierComparison :=
  fun p a => ⟨classify_none_eq_panel p a, fun e => ⟨classify_some_eq_unit_iff p e a, classify_some_eq_panel_iff p e a⟩⟩

/-! ## The gap of 300 ms -/

/-- At `10 * q` ticks a second, 300 ms is `3 * q` ticks: the comparison is with that whole number. -/
theorem ten_mul_lt_three_mul_tickHz_iff {p : Config.Params} {q : Nat} (hq : p.tickHz = 10 * q) (g : Int) :
    10 * g < 3 * p.tickHz ↔ g < 3 * q := by
  omega

/-- A gap of exactly 300 ms needs a `TICK_HZ` that 10 divides, as 10 and 3 have no common factor. -/
theorem ten_mul_ne_three_mul_tickHz {p : Config.Params} (h : ¬ 10 ∣ p.tickHz) (g : Int) : 10 * g ≠ 3 * p.tickHz := by
  omega

/-! ## After an invalid packet -/

/-- An invalid packet moves the anchor to its own end (R132, R185). -/
theorem anchor_of_exec_invalidChecksum {b : Packet} {a e : Nat} {s t : State}
    (h : exec (.invalidChecksum b a e) s = .next t) : t.anchor = some e := by
  rw [ChecksumValidator.exec_invalidChecksum] at h
  cases h
  exact Laws.completePacket_anchor s _ e

/-- A valid packet that starts less than 300 ms after the anchor is a UNIT_RESPONSE (R72, R131). -/
theorem decodePacket_some_eq_unitResponse {b : Packet} {a e₀ : Nat} (hvalid : b.b5 = checksum b.payload)
    (hgap : 10 * ((a : Int) - e₀) < 3 * Config.params.tickHz) (e : Nat) :
    decodePacket (some e₀) b a e = .unitResponse b a e :=
  (PacketEncoding.decodePacket_eq_classInstr_iff (some e₀) b a e .unitResponse).2
    ⟨hvalid, (classify_some_eq_unit_iff _ _ _).2 hgap⟩

/-- Settles O31: the comparison on each side of 300 ms, and the packet after an invalid one against the invalid one's
end. -/
theorem classifierBoundary : Obligations.ClassifierBoundary := by
  refine ⟨fun p a e q => ⟨classify_none_eq_panel p a, fun hq => ⟨fun hexact => ?_, fun hbelow => ?_⟩, fun hten => ?_⟩, ?_⟩
  · rw [classify_some_eq_panel_iff, ten_mul_lt_three_mul_tickHz_iff hq, hexact]
    exact lt_irrefl _
  · rwa [classify_some_eq_unit_iff, ten_mul_lt_three_mul_tickHz_iff hq]
  · exact ⟨ten_mul_ne_three_mul_tickHz hten, classifierBoundaryInSeconds p e a⟩
  · intro s t b₀ b a₀ e₀ a e hexec hvalid hgap
    rw [anchor_of_exec_invalidChecksum hexec]
    exact decodePacket_some_eq_unitResponse hvalid hgap e

end Sys2Proof.Proofs.ClassifierBoundary
end

section
/-! The Field Decoder, Unit variant (43_unit_decoder.md R140 to R142): the Unit record on each side of the no-reading flag,
and its temperature in half degrees. -/

namespace Sys2Proof.Proofs.UnitDecoder

open Sys2Proof.Machine
open Sys2Proof.Proofs.PayloadFields

/-! ## The Unit record on each side of the no-reading flag -/

/-- The no-reading flag is set exactly for the bytes from 128 on. -/
theorem noReading_eq_true_iff (c : Byte) : noReading c = true ↔ 128 ≤ c.toNat := by
  rw [← Bool.not_eq_false, noReading_eq_false_iff, not_lt]

/-- The operand as the nine bits of its number (R141). -/
theorem roomTempHalf_eq_ofNat (p : Payload) : roomTempHalf p = BitVec.ofNat 9 (p.p1.toNat + 20) := by
  rw [← toNat_roomTempHalf, BitVec.ofNat_toNat, BitVec.setWidth_eq]

/-- Below 128 the temperature is decoded from byte 1, and the residual has no byte 1 (R140, R142). -/
theorem classRecord_unitResponse_of_lt {b : Packet} (h : b.b1.toNat < 128) (a e : Nat) :
    classRecord .unitResponse b a e =
      .validPacket a e b.payload b.b5 .unit (.unit (some (BitVec.ofNat 9 (b.b1.toNat + 20))))
        (some ⟨b.b0, 0, b.b2, b.b3, b.b4⟩) := by
  rw [classRecord_unitResponse, (noReading_eq_false_iff b.b1).2 h, roomTempHalf_eq_ofNat]
  rfl

/-- From 128 on there is no temperature, and the residual is the whole payload (R140, R142). -/
theorem classRecord_unitResponse_of_ge {b : Packet} (h : 128 ≤ b.b1.toNat) (a e : Nat) :
    classRecord .unitResponse b a e =
      .validPacket a e b.payload b.b5 .unit (.unit none) (some b.payload) := by
  rw [classRecord_unitResponse, (noReading_eq_true_iff b.b1).2 h]
  rfl

/-- Settles O36: the record of each side, driven on the bundle (R182, R183). -/
theorem unitResponseRecord : Obligations.UnitResponseRecord := by
  intro s b a e
  have hexec := Laws.exec_classInstr .unitResponse b a e s
  refine ⟨fun h => ?_, fun h => ?_⟩
  · rw [classRecord_unitResponse_of_lt h] at hexec
    exact hexec
  · rw [classRecord_unitResponse_of_ge h] at hexec
    exact hexec

/-! ## The temperature in half degrees -/

/-- A Unit record reports a temperature exactly when the no-reading flag is clear (R140). -/
theorem tempPresent_unitResponse_iff (b : Packet) (a e : Nat) :
    (classRecord .unitResponse b a e).bundle.tempPresent = true ↔ b.b1.toNat < 128 := by
  refine ⟨fun h => (unitResponse_operand h).1, fun h => ?_⟩
  rw [classRecord_unitResponse_of_lt h]
  rfl

/-- Half of `p[1] + 20` is `p[1] / 2 + 10`, with no rounding (R141). -/
theorem half_of_toNat_eq_add {operand : BitVec 9} {c : Byte} (h : operand.toNat = c.toNat + 20) :
    (operand.toNat : ℚ) / 2 = (c.toNat : ℚ) / 2 + 10 := by
  rw [h]
  push_cast
  ring

/-- Settles O39: both variants carry the operand `p[1] + 20` (R141, R155). -/
theorem temperatureIsExactInHalfDegrees : Obligations.TemperatureIsExactInHalfDegrees := by
  intro s t u b a e ht hu
  rw [out_of_exec_classInstr (c := .unitResponse) ht, out_of_exec_classInstr (c := .panelStatus) hu]
  have hstatus : (classRecord .panelStatus b a e).bundle.roomTempHalf.toNat = b.b1.toNat + 20 :=
    toNat_roomTempHalf b.payload
  exact ⟨fun hpresent => half_of_toNat_eq_add (unitResponse_operand hpresent).2, tempPresent_unitResponse_iff b a e, rfl,
    half_of_toNat_eq_add hstatus⟩

end Sys2Proof.Proofs.UnitDecoder
end

section
/-! The Field Decoder, Panel variant (44_panel_decoder.md R151 to R160): the features record on each side of its residual,
and the status record with each field as the number that its bits make. -/

namespace Sys2Proof.Proofs.PanelDecoder

open Sys2Proof.Machine
open Sys2Proof.Proofs.PayloadFields

/-! ## The features record -/

/-- The features decoder gives no field, and the residual alone (R151). -/
theorem classRecord_panelFeatures (b : Packet) (a e : Nat) :
    classRecord .panelFeatures b a e =
      .validPacket a e b.payload b.b5 .panel .panelFeatures (featuresResidual b.payload) := rfl

theorem featuresResidual_of_zero {p : Payload} (h : p.p1 = 0 ∧ p.p2 = 0 ∧ p.p3 = 0) : featuresResidual p = none :=
  if_pos h

theorem featuresResidual_of_not_zero {p : Payload} (h : ¬ (p.p1 = 0 ∧ p.p2 = 0 ∧ p.p3 = 0)) :
    featuresResidual p = some ⟨0, p.p1, p.p2, p.p3, 0⟩ :=
  if_neg h

/-- Settles O37: the record with each outcome of the residual, driven on the bundle (R182, R183). -/
theorem panelFeaturesRecord : Obligations.PanelFeaturesRecord := by
  intro s b a e
  have hexec := Laws.exec_classInstr .panelFeatures b a e s
  rw [classRecord_panelFeatures] at hexec
  refine ⟨fun h => ?_, fun h => ?_⟩
  · rw [featuresResidual_of_not_zero (p := b.payload) h] at hexec
    exact hexec
  · rw [featuresResidual_of_zero (p := b.payload) h] at hexec
    exact hexec

/-! ## The status fields as numbers -/

/-- A 3-bit code is cut from its byte by dropping the four bits below it (R153, R157). -/
theorem extractLsb'_code_eq_ofNat (c : Byte) : c.extractLsb' 4 3 = BitVec.ofNat 3 (c.toNat / 16) := by
  rw [BitVec.extractLsb', Nat.shiftRight_eq_div_pow]

/-- Of a number only its three low bits say whether its code has a name. -/
theorem ofNat_mem_namedCodes_iff (n : Nat) : BitVec.ofNat 3 n ∈ namedCodes ↔ n % 8 ∈ [0, 1, 2, 4] := by
  simp [namedCodes, ← BitVec.toNat_inj]

theorem modeKnown_ofNat (n : Nat) : modeKnown (BitVec.ofNat 3 n) = decide (n % 8 ∈ [0, 1, 2, 4]) := by
  rw [Bool.eq_iff_iff, modeKnown_iff, ofNat_mem_namedCodes_iff, decide_eq_true_iff]

theorem fanKnown_ofNat (n : Nat) : fanKnown (BitVec.ofNat 3 n) = decide (n % 8 ∈ [0, 1, 2, 4]) := by
  rw [Bool.eq_iff_iff, fanKnown_iff, ofNat_mem_namedCodes_iff, decide_eq_true_iff]

/-- The set temperature as the five bits of its number (R158). -/
theorem setTemp_eq_ofNat (p : Payload) : setTemp p = BitVec.ofNat 5 (p.p2.toNat % 16 + 16) := by
  rw [← toNat_setTemp, BitVec.ofNat_toNat, BitVec.setWidth_eq]

/-- The plasma flag is its byte's top bit, set exactly from 128 on (R156). -/
theorem plasma_eq_decide (p : Payload) : plasma p = decide (128 ≤ p.p2.toNat) := by
  rw [plasma, ← BitVec.msb_eq_getLsbD_last (x := p.p2), BitVec.msb_eq_decide]

/-- A flag is the digit of weight `2^k` of its byte (R10). -/
theorem getLsbD_eq_decide (c : Byte) (k : Nat) : c.getLsbD k = decide (c.toNat / 2 ^ k % 2 = 1) :=
  Nat.testBit_eq_decide_div_mod_eq

/-- The flag in bit 0 is set exactly for the odd bytes. -/
theorem getLsbD_zero_eq_decide (c : Byte) : c.getLsbD 0 = decide (c.toNat % 2 = 1) := by
  rw [getLsbD_eq_decide, pow_zero, Nat.div_one]

theorem resistorActive_eq_decide (p : Payload) : resistorActive p = decide (p.p0.toNat / 8 % 2 = 1) :=
  getLsbD_eq_decide p.p0 3

theorem running_eq_decide (p : Payload) : running p = decide (p.p0.toNat / 4 % 2 = 1) :=
  getLsbD_eq_decide p.p0 2

theorem settingsChanged_eq_decide (p : Payload) : settingsChanged p = decide (p.p0.toNat % 2 = 1) :=
  getLsbD_zero_eq_decide p.p0

theorem swivel_eq_decide (p : Payload) : swivel p = decide (p.p3.toNat / 32 % 2 = 1) :=
  getLsbD_eq_decide p.p3 5

theorem swirl_eq_decide (p : Payload) : swirl p = decide (p.p4.toNat % 2 = 1) :=
  getLsbD_zero_eq_decide p.p4

/-! ## The status record -/

/-- The status fields of a payload, each as the number that its bits make (R153 to R159). -/
def numericStatusFields (p : Payload) : StatusFields where
  mode := BitVec.ofNat 3 (p.p0.toNat / 16)
  resistor := decide (p.p0.toNat / 8 % 2 = 1)
  running := decide (p.p0.toNat / 4 % 2 = 1)
  settingsChanged := decide (p.p0.toNat % 2 = 1)
  roomTempHalf := BitVec.ofNat 9 (p.p1.toNat + 20)
  plasma := decide (128 ≤ p.p2.toNat)
  fan := BitVec.ofNat 3 (p.p2.toNat / 16)
  setTemp := BitVec.ofNat 5 (p.p2.toNat % 16 + 16)
  swivel := decide (p.p3.toNat / 32 % 2 = 1)
  swirl := decide (p.p4.toNat % 2 = 1)

/-- The status decoder gives these numbers, and always a residual (R152, R160). -/
theorem decodePanelStatus_eq (p : Payload) :
    decodePanelStatus p = (.panelStatus (numericStatusFields p), some (statusResidual p)) := by
  rw [decodePanelStatus, modeCode, extractLsb'_code_eq_ofNat, resistorActive_eq_decide, running_eq_decide,
    settingsChanged_eq_decide, UnitDecoder.roomTempHalf_eq_ofNat, plasma_eq_decide, fanCode, extractLsb'_code_eq_ofNat,
    setTemp_eq_ofNat, swivel_eq_decide, swirl_eq_decide, numericStatusFields]

theorem classRecord_panelStatus (b : Packet) (a e : Nat) :
    classRecord .panelStatus b a e =
      .validPacket a e b.payload b.b5 .panel (.panelStatus (numericStatusFields b.payload))
        (some (statusResidual b.payload)) := by
  rw [classRecord, decodePanelStatus_eq, validRecord]

/-- Settles O38: the record of the numeric fields, driven on the bundle (R182, R183), with the known bits of the two codes
(R67, R68). -/
theorem panelStatusRecord : Obligations.PanelStatusRecord := by
  intro s b a e
  have hexec := Laws.exec_classInstr .panelStatus b a e s
  rw [classRecord_panelStatus] at hexec
  rw [← modeKnown_ofNat (b.b0.toNat / 16), ← fanKnown_ofNat (b.b2.toNat / 16)]
  exact hexec

end Sys2Proof.Proofs.PanelDecoder
end

section
/-! The Packet Emitter (45_packet_emitter.md R181, R184, R185, R187): when a command emits a record, where the anchor then
stands, and what the record depends on. -/

namespace Sys2Proof.Proofs.PacketEmitter

open Sys2Proof.Machine
open Sys2Proof.Proofs.FrameAggregator

/-! ## DATA, by whether it completes a packet -/

/-- A DATA byte into five bytes with no gap ends the packet of the six bytes, with the record of its class. -/
theorem state_of_exec_data_of_sixth {s t : State} {v : Byte} {a b : Nat} (hsixth : s.cnt.val = 5 ∧ ¬ s.gapFires a)
    (h : exec (.data v a b) s = .next t) :
    ∃ q start, packetBytes q = s.bytes ++ [v] ∧ s.firstStart = some start ∧
      t = s.completePacket (classRecord (packetClass Config.params s.anchor q start) q start b) b := by
  obtain ⟨hcnt, hgap⟩ := hsixth
  obtain ⟨q, start, hbytes, hstart, hexec⟩ := Laws.execDataAt_complete Config.params v a b s hgap hcnt
  cases hexec.symm.trans h
  exact ⟨q, start, hbytes, hstart, rfl⟩

/-- Any other DATA byte is held: alone after a gap, behind the bytes before it otherwise. -/
theorem state_of_exec_data_of_not_sixth {s t : State} {v : Byte} {a b : Nat}
    (hsixth : ¬ (s.cnt.val = 5 ∧ ¬ s.gapFires a)) (h : exec (.data v a b) s = .next t) : ∃ l, t = s.hold l := by
  by_cases hgap : s.gapFires a
  · cases (Laws.execDataAt_discard Config.params v a b s hgap).symm.trans h
    exact ⟨_, rfl⟩
  · have hcnt : s.cnt.val < 5 := by
      have hne : s.cnt.val ≠ 5 := fun hfive => hsixth ⟨hfive, hgap⟩
      omega
    obtain ⟨l, hexec, -⟩ := Laws.execDataAt_hold Config.params v a b s hgap hcnt
    cases hexec.symm.trans h
    exact ⟨l, rfl⟩

/-! ## When a record is emitted -/

/-- DATA drives a valid record or none, and the former exactly with the sixth byte. -/
theorem out_of_exec_data {s t : State} {v : Byte} {a b : Nat} (h : exec (.data v a b) s = .next t) :
    (t.out.valid = true ↔ s.cnt.val = 5 ∧ ¬ s.gapFires a) ∧ (t.out.valid = false → t.out = .noRecord) := by
  by_cases hsixth : s.cnt.val = 5 ∧ ¬ s.gapFires a
  · obtain ⟨q, start, -, -, rfl⟩ := state_of_exec_data_of_sixth hsixth h
    obtain ⟨hvalid, -⟩ := Laws.classRecord_bundle (packetClass Config.params s.anchor q start) q start b
    exact ⟨iff_of_true hvalid hsixth, fun hnot => Bool.noConfusion (hvalid.symm.trans hnot)⟩
  · obtain ⟨l, rfl⟩ := state_of_exec_data_of_not_sixth hsixth h
    exact ⟨iff_of_false Bool.false_ne_true hsixth, fun _ => Laws.hold_out s l⟩

/-- A command other than DATA that drives no record meets R184. -/
theorem emits_iff_of_not_data {s t : State} {i : Instr} (hout : t.out = .noRecord) (hi : ∀ v a b, i ≠ .data v a b) :
    (t.out.valid = true ↔ ∃ v a b, i = .data v a b ∧ s.cnt.val = 5 ∧ ¬ s.gapFires a) ∧
      (t.out.valid = false → t.out = .noRecord) := by
  rw [hout]
  exact ⟨iff_of_false Bool.false_ne_true fun ⟨v, a, b, hdata, _⟩ => hi v a b hdata, fun _ => rfl⟩

/-- Settles O24: DATA emits exactly with the sixth byte, and no other command does. -/
theorem recordExactlyOnTheSixthByte : Obligations.RecordExactlyOnTheSixthByte := by
  intro s t i hi h
  rcases hi with rfl | rfl | rfl | ⟨v, a, b, rfl⟩
  · cases (exec_idle s).symm.trans h
    exact emits_iff_of_not_data rfl nofun
  · cases (exec_other s).symm.trans h
    exact emits_iff_of_not_data rfl nofun
  · cases (RecordAndReset.exec_sessionReset s).symm.trans h
    exact emits_iff_of_not_data (Laws.clearSession_out s) nofun
  · obtain ⟨hiff, hnone⟩ := out_of_exec_data h
    refine ⟨hiff.trans ⟨fun hsixth => ⟨v, a, b, rfl, hsixth⟩, ?_⟩, hnone⟩
    rintro ⟨_, _, _, hdata, hsixth⟩
    cases hdata
    exact hsixth

/-! ## The anchor -/

/-- Every packet class moves the anchor to the packet's end (R185). -/
theorem anchor_of_exec_classInstr {c : PacketClass} {b : Packet} {a e : Nat} {s t : State}
    (h : exec (classInstr c b a e) s = .next t) : t.anchor = some e := by
  cases (Laws.exec_classInstr c b a e s).symm.trans h
  exact Laws.completePacket_anchor s _ e

/-- Settles O34: a packet class, alone or run by the sixth byte, moves the anchor, and a held byte, IDLE and OTHER do not;
that an invalid packet re-arms the window is O31's second part. -/
theorem anchorAdvancesOnEveryPacket : Obligations.AnchorAdvancesOnEveryPacket := by
  refine ⟨fun s t c b a e => anchor_of_exec_classInstr, fun s t v a b h => ⟨fun hsixth => ?_, fun hsixth => ?_⟩, ?_, ?_⟩
  · obtain ⟨q, start, -, -, rfl⟩ := state_of_exec_data_of_sixth hsixth h
    exact Laws.completePacket_anchor s _ b
  · obtain ⟨l, rfl⟩ := state_of_exec_data_of_not_sixth hsixth h
    exact Laws.hold_anchor s l
  · rintro s t (h | h)
    · cases (exec_idle s).symm.trans h
      rfl
    · cases (exec_other s).symm.trans h
      rfl
  · obtain ⟨-, hrearm⟩ := ClassifierBoundary.classifierBoundary
    exact hrearm

/-! ## The record -/

/-- `cnt` of a state counts its buffered bytes (R20). -/
theorem cnt_eq_length_bytes (s : State) : s.cnt.val = s.bytes.length := (Laws.bytes_length s.buffer).symm

/-- A packet is its six bytes. -/
theorem packetBytes_injective : Function.Injective packetBytes := by
  rintro ⟨_, _, _, _, _, _⟩ ⟨_, _, _, _, _, _⟩ h
  simpa [packetBytes] using h

/-- Settles O45: equal buffered bytes and first start give the same packet with the same start, and the same anchor gives it
the same class, so both states end it with the same record. -/
theorem recordIsAFunctionOfThePacket : Obligations.RecordIsAFunctionOfThePacket := by
  intro s₁ s₂ t₁ t₂ v a₁ a₂ e hbytes hfirst hanchor hcnt₁ hgap₁ hgap₂ h₁ h₂
  have hcnt₂ : s₂.cnt.val = 5 := by rw [cnt_eq_length_bytes, ← hbytes, ← cnt_eq_length_bytes, hcnt₁]
  obtain ⟨q₁, start₁, hq₁, hstart₁, rfl⟩ := state_of_exec_data_of_sixth ⟨hcnt₁, hgap₁⟩ h₁
  obtain ⟨q₂, start₂, hq₂, hstart₂, rfl⟩ := state_of_exec_data_of_sixth ⟨hcnt₂, hgap₂⟩ h₂
  obtain rfl : q₁ = q₂ := packetBytes_injective (by rw [hq₁, hq₂, hbytes])
  obtain rfl : start₁ = start₂ := Option.some.inj (by rw [← hstart₁, ← hstart₂, hfirst])
  obtain ⟨hvalid, -⟩ := Laws.classRecord_bundle (packetClass Config.params s₁.anchor q₁ start₁) q₁ start₁ e
  rw [hanchor] at hvalid ⊢
  exact ⟨rfl, hvalid, rfl, rfl⟩

/-- Settles O35: the packet ends with the record of its bytes and times, whose bundle drives these alone. -/
theorem invalidChecksumRecord : Obligations.InvalidChecksumRecord := by
  intro s b a e
  rw [ChecksumValidator.exec_invalidChecksum]
  rfl

end Sys2Proof.Proofs.PacketEmitter
end

section
/-! The error reports (60_exceptions.md R202, R205): an unrecognised code changes no other field of its record, and the
conditions of a step are tested in a fixed order. -/

namespace Sys2Proof.Proofs.ErrorReports

open Sys2Proof.Machine
open Sys2Proof.Proofs.PayloadFields
open Sys2Proof.Proofs.PanelDecoder

/-! ## The payload without its codes -/

/-- The payload with the mode code and the fan code cleared: bits 6..4 of bytes 0 and 2 (R153, R157). -/
def clearCodes (p : Payload) : Payload := { p with p0 := p.p0 &&& 0x8F, p2 := p.p2 &&& 0x8F }

/-- The mask 0x8F keeps every bit outside bits 6..4. -/
theorem getLsbD_and_0x8F (c : Byte) {k : Nat} (hk : (0x8F : Byte).getLsbD k = true) :
    (c &&& 0x8F).getLsbD k = c.getLsbD k := by
  rw [BitVec.getLsbD_and, hk, Bool.and_true]

theorem resistorActive_clearCodes (p : Payload) : resistorActive (clearCodes p) = resistorActive p :=
  getLsbD_and_0x8F p.p0 rfl

theorem running_clearCodes (p : Payload) : running (clearCodes p) = running p := getLsbD_and_0x8F p.p0 rfl

theorem settingsChanged_clearCodes (p : Payload) : settingsChanged (clearCodes p) = settingsChanged p :=
  getLsbD_and_0x8F p.p0 rfl

theorem plasma_clearCodes (p : Payload) : plasma (clearCodes p) = plasma p := getLsbD_and_0x8F p.p2 rfl

/-- The set temperature is cut from the four bits below the fan code (R158). -/
theorem setTemp_clearCodes (p : Payload) : setTemp (clearCodes p) = setTemp p := by
  have hlow : (p.p2 &&& 0x8F).extractLsb' 0 4 = p.p2.extractLsb' 0 4 := by
    rw [BitVec.extractLsb'_and]
    exact BitVec.and_allOnes
  rw [setTemp, setTemp, clearCodes, hlow]

/-- The residual has no bit of a code (R160). -/
theorem statusResidual_clearCodes (p : Payload) : statusResidual (clearCodes p) = statusResidual p := by
  have hbit : p.p0 &&& 0x8F &&& 0x02 = p.p0 &&& 0x02 := BitVec.and_assoc _ _ _
  rw [statusResidual, statusResidual, clearCodes, hbit]

/-- The status decoder reads the codes for the two code fields alone. -/
theorem decodePanelStatus_eq_clearCodes (p : Payload) :
    decodePanelStatus p =
      (.panelStatus { numericStatusFields (clearCodes p) with mode := modeCode p, fan := fanCode p },
        some (statusResidual (clearCodes p))) := by
  rw [numericStatusFields, ← resistorActive_eq_decide, ← running_eq_decide, ← settingsChanged_eq_decide,
    ← UnitDecoder.roomTempHalf_eq_ofNat, ← plasma_eq_decide, ← setTemp_eq_ofNat, ← swivel_eq_decide, ← swirl_eq_decide,
    resistorActive_clearCodes, running_clearCodes, settingsChanged_clearCodes, plasma_clearCodes, setTemp_clearCodes,
    statusResidual_clearCodes]
  rfl

theorem classRecord_panelStatus_eq_clearCodes (b : Packet) (a e : Nat) :
    classRecord .panelStatus b a e =
      .validPacket a e b.payload b.b5 .panel
        (.panelStatus
          { numericStatusFields (clearCodes b.payload) with mode := modeCode b.payload, fan := fanCode b.payload })
        (some (statusResidual (clearCodes b.payload))) := by
  rw [classRecord, decodePanelStatus_eq_clearCodes, validRecord]

/-- Settles O42: the two packets have the same payload without its codes, and every other field is decoded from that. -/
theorem unrecognisedCodeTouchesNothingElse : Obligations.UnrecognisedCodeTouchesNothingElse := by
  intro s t u b c a e h0 h1 h2 h3 h4 ht hu
  have hclear : clearCodes b.payload = clearCodes c.payload := by
    simp only [clearCodes, Packet.payload, h0, h1, h2, h3, h4]
  rw [out_of_exec_classInstr (c := .panelStatus) ht, out_of_exec_classInstr (c := .panelStatus) hu,
    classRecord_panelStatus_eq_clearCodes b, classRecord_panelStatus_eq_clearCodes c, hclear]
  exact ⟨rfl, rfl, rfl⟩

/-! ## The order of the conditions -/

/-- A features record drives no code and no known bit: these are fields of a status record (R183). -/
theorem codes_of_panelFeatures_bundle (b : Packet) (a e : Nat) :
    (classRecord .panelFeatures b a e).bundle.modeCode = 0 ∧
      (classRecord .panelFeatures b a e).bundle.modeKnown = false ∧
      (classRecord .panelFeatures b a e).bundle.fanCode = 0 ∧
      (classRecord .panelFeatures b a e).bundle.fanKnown = false := by
  rw [classRecord_panelFeatures]
  cases featuresResidual b.payload <;> exact ⟨rfl, rfl, rfl, rfl⟩

/-- At time 0 a status packet is well formed when it validates and the features selector is not set (R72). -/
theorem wellFormed_panelStatus_zero {b : Packet} (hvalid : validate b = true) (hsel : featuresSelected b.b0 = false) :
    wellFormed (.panelStatus b 0 0) = true := by
  rw [wellFormed, wellFormedAt, Laws.fits_zero, hvalid, hsel]
  rfl

/-- A payload with its checksum as the trailer validates (R121). -/
theorem validate_packet_checksum (p : Payload) : validate (Payload.packet p (checksum p)) = true :=
  (PacketEncoding.validate_eq_true_iff _).2 rfl

/-- A byte whose bits 6..4 are the code 0, which both tables name, or the code 3, which neither names (R67, R68). -/
def byteWithCode (known : Bool) : Byte := if known then 0x00 else 0x30

theorem modeKnown_byteWithCode (known : Bool) : modeKnown ((byteWithCode known).extractLsb' 4 3) = known := by
  cases known <;> decide

theorem fanKnown_byteWithCode (known : Bool) : fanKnown ((byteWithCode known).extractLsb' 4 3) = known := by
  cases known <;> decide

theorem featuresSelected_byteWithCode (known : Bool) : featuresSelected (byteWithCode known) = false := by
  cases known <;> rfl

/-- A payload whose mode code and fan code are named or not, each as asked. -/
def payloadWithCodes (modeNamed fanNamed : Bool) : Payload := ⟨byteWithCode modeNamed, 0, byteWithCode fanNamed, 0, 0⟩

/-- A well-formed status packet drives each pair of known bits, in every state. -/
theorem panelStatus_drives_known_bits (s : State) (a e : Nat) (m f : Bool) :
    ∃ b t, exec (.panelStatus b a e) s = .next t ∧ wellFormed (.panelStatus b 0 0) = true ∧
      t.out.modeKnown = m ∧ t.out.fanKnown = f :=
  ⟨Payload.packet (payloadWithCodes m f) (checksum (payloadWithCodes m f)), _, Laws.exec_classInstr .panelStatus _ a e s,
    wellFormed_panelStatus_zero (validate_packet_checksum _) (featuresSelected_byteWithCode m),
    modeKnown_byteWithCode m, fanKnown_byteWithCode f⟩

/-- Settles O48: the gap test precedes the append, validation and then classification decide the class, only a status packet
has codes, and its two known bits take every pair of values. -/
theorem conditionPriority : Obligations.ConditionPriority := by
  refine ⟨fun s v a b _ hgap => ?_, fun anchor b a e hinvalid => ?_, fun anchor b a e hvalid hunit => ?_,
    fun s t b a e h => ?_, panelStatus_drives_known_bits⟩
  · exact ⟨_, Laws.execDataAt_discard Config.params v a b s hgap, Laws.hold_out s _, rfl⟩
  · exact ChecksumValidator.decodePacket_of_wrong_trailer ((PacketEncoding.validate_eq_false_iff b).1 hinvalid) anchor a e
  · exact (PacketEncoding.decodePacket_eq_classInstr_iff anchor b a e .unitResponse).2
      ⟨(PacketEncoding.validate_eq_true_iff b).1 hvalid, hunit⟩
  · rw [out_of_exec_classInstr (c := .panelFeatures) h]
    obtain ⟨hmode, hmodeKnown, hfan, hfanKnown⟩ := codes_of_panelFeatures_bundle b a e
    exact ⟨hmode, hmodeKnown, hfan, hfanKnown, rfl⟩

end Sys2Proof.Proofs.ErrorReports
end

section
/-! Reset and the stream (70_reset_and_hazards.md): the state that both resets leave (R230), and that neither the commands
after a reset see what came before it nor the commands before it see what comes after them (R232). -/

namespace Sys2Proof.Proofs.ResetAtomicity

open Sys2Proof.Machine
open Sys2Proof.Proofs.InputCommand
open Sys2Proof.Proofs.FrameAggregator

/-! ## The two resets -/

/-- Of the state before it, a reset of the session keeps only the stream, which is not the block's. -/
theorem clearSession_eq_reset (s : State) : s.clearSession = { State.reset with input := s.input } := rfl

/-- Settles O54: the cleared session is the power-on state with the stream kept. -/
theorem powerOnEqualsSessionReset : Obligations.PowerOnEqualsSessionReset := fun s =>
  (RecordAndReset.exec_sessionReset s).trans (congrArg _ (clearSession_eq_reset s))

theorem state_of_exec_sessionReset {s t : State} (h : exec .sessionReset s = .next t) :
    t = { State.reset with input := s.input } := by
  cases (powerOnEqualsSessionReset s).symm.trans h
  rfl

/-! ## The frames still to come -/

/-- No instruction reads the frames still to come: over any others it leaves the same state, but for them. -/
theorem exec_with_input {i : Instr} {s t : State} (h : exec i s = .next t) (l : List Frame) :
    exec i { s with input := l } = .next { t with input := l } := by
  cases i with
  | data v a b =>
    rcases happend : (s.buffer.afterGapTest Config.params a).append v a b with k | ⟨q, start, e⟩
    · cases (exec_data_of_held happend).symm.trans h
      exact exec_data_of_held (s := { s with input := l }) happend
    · cases ((exec_data_of_complete happend).trans (exec_decodePacket ..)).symm.trans h
      exact (exec_data_of_complete (s := { s with input := l }) happend).trans (exec_decodePacket ..)
  | _ =>
    cases h
    rfl

/-- A step that answers a next state has decoded the frame at the port. -/
theorem decode_of_step_next {s t : State} {f : Frame} {rest : List Frame} (hs : s.input = f :: rest)
    (h : step s = .next t) : ∃ i, decodeFrameAt Config.params f = .ok i := by
  rw [Laws.step_eq_stepAt] at h
  rcases Laws.stepAt_cases Config.params s with ⟨hnil, -⟩ | ⟨g, rest', i, hcons, hi, -⟩ | ⟨-, -, -, -, hrefused⟩
  · cases hnil.symm.trans hs
  · cases hcons.symm.trans hs
    exact ⟨i, hi⟩
  · cases hrefused.symm.trans h

/-- The step takes the frame at the port and reads none behind it. -/
theorem step_with_rest {s t : State} {f : Frame} {rest : List Frame} (hs : s.input = f :: rest)
    (h : step s = .next t) :
    t.input = rest ∧ ∀ l, step { s with input := f :: l } = .next { t with input := l } := by
  obtain ⟨i, hi⟩ := decode_of_step_next hs h
  have hexec : exec i { s with input := rest } = .next t := (step_of_decode hs hi).symm.trans h
  have hinput : t = { t with input := rest } :=
    Host.Outcome.next.inj (hexec.symm.trans (exec_with_input hexec rest))
  exact ⟨congrArg State.input hinput, fun l => (step_of_decode rfl hi).trans (exec_with_input hexec l)⟩

/-- A run of one more step that ends in a next state has a first step that answers one. -/
theorem step_of_core_run_succ {k : Nat} {s t : State} (h : core.run (k + 1) s = .next t) :
    ∃ u, step s = .next u ∧ core.run k u = .next t := by
  rcases hstep : step s with u | r | r
  · exact ⟨u, rfl, (Laws.core_run_succ k s u hstep).symm.trans h⟩
  · cases r
  · have hcore : core.step s = .refused r := hstep
    simp [Host.Core.run, hcore] at h

/-- A run over the frames `before` reads none of the frames behind them. -/
theorem run_with_rest {before rest : List Frame} {s t : State} (hs : s.input = before ++ rest)
    (h : core.run before.length s = .next t) (l : List Frame) :
    core.run before.length { s with input := before ++ l } = .next { t with input := l } := by
  induction before generalizing s with
  | nil =>
    cases h
    rfl
  | cons f before ih =>
    obtain ⟨u, hstep, hrun⟩ := step_of_core_run_succ h
    obtain ⟨hu, hstep'⟩ := step_with_rest hs hstep
    exact (Laws.core_run_succ _ _ _ (hstep' (before ++ l))).trans (ih hu hrun)

/-- Settles O55: both resets leave the power-on state with the one stream kept, and a run reads no frame behind the ones it
takes, by induction on these. -/
theorem resetForgetsThePast : Obligations.ResetForgetsThePast := by
  refine ⟨fun s₁ s₂ t₁ t₂ hinput h₁ h₂ => ?_, fun before after₁ after₂ s t h => run_with_rest rfl h after₂⟩
  obtain rfl := state_of_exec_sessionReset h₁
  obtain rfl := state_of_exec_sessionReset h₂
  exact ⟨by rw [hinput], rfl, rfl⟩

end Sys2Proof.Proofs.ResetAtomicity
end

section
/-! Decoding and encoding (30_encoding.md R60 to R63, R72): each of the two undoes the other, what the step makes of the frame
at the port, and the one frame it refuses. -/

namespace Sys2Proof.Proofs.EncodingRoundTrip

open Sys2Proof.Machine
open Sys2Proof.Proofs.InputCommand
open Sys2Proof.Proofs.PacketEncoding

/-! ## Packets -/

/-- A word is the word of its six bytes. -/
theorem toWord_ofWord (w : BitVec 48) : (Packet.ofWord w).toWord = w := by
  apply BitVec.eq_of_toNat_eq
  have := w.isLt
  simp only [toNat_toWord, Packet.ofWord, BitVec.extractLsb'_toNat, Nat.shiftRight_eq_div_pow]
  omega

theorem encode_classInstr (c : PacketClass) (b : Packet) (a e : Nat) :
    encode (classInstr c b a e) = .packet b.toWord a e := by
  cases c <;> rfl

/-- A packet class instruction is well formed and agrees with the anchor exactly when its times fit their buses and the class
is the one that the packet decodes to (R72). -/
theorem wellFormed_and_agrees_classInstr_iff (anchor : Option Nat) (c : PacketClass) (b : Packet) (a e : Nat) :
    wellFormed (classInstr c b a e) = true ∧ agreesWithAnchor anchor (classInstr c b a e) = true ↔
      (Config.params.fits a = true ∧ Config.params.fits e = true) ∧ packetClass Config.params anchor b a = c := by
  rw [packetClass_eq_iff, wellFormed, agreesWithAnchor]
  cases c
  · simp [classInstr, wellFormedAt, agreesWithAnchorAt, ClassCondition, validate_eq_false_iff]
  · simp [classInstr, wellFormedAt, agreesWithAnchorAt, ClassCondition, validate_eq_true_iff, and_assoc]
  · simp [classInstr, wellFormedAt, agreesWithAnchorAt, ClassCondition, validate_eq_true_iff,
      featuresSelected_eq_true_iff, and_assoc, and_comm, and_left_comm]
  · simp [classInstr, wellFormedAt, agreesWithAnchorAt, ClassCondition, validate_eq_true_iff,
      featuresSelected_eq_false_iff, and_assoc, and_comm, and_left_comm]

/-- The packet decoder accepts exactly the packets whose two times fit their buses, and answers their class. -/
theorem decode_packet_eq_ok_iff (anchor : Option Nat) (w : BitVec 48) (a e : Nat) (i : Instr) :
    decode anchor (.packet w a e) = .ok i ↔
      (Config.params.fits a = true ∧ Config.params.fits e = true) ∧
        classInstr (packetClass Config.params anchor (Packet.ofWord w) a) (Packet.ofWord w) a e = i := by
  rw [decode, decodeAt, ← Bool.and_eq_true]
  split <;> simp [*, decodePacketAt]

theorem decode_encode_classInstr {anchor : Option Nat} {c : PacketClass} {b : Packet} {a e : Nat}
    (hwf : wellFormed (classInstr c b a e) = true) (hag : agreesWithAnchor anchor (classInstr c b a e) = true) :
    decode anchor (encode (classInstr c b a e)) = .ok (classInstr c b a e) := by
  obtain ⟨hfits, hclass⟩ := (wellFormed_and_agrees_classInstr_iff anchor c b a e).1 ⟨hwf, hag⟩
  rw [encode_classInstr, decode_packet_eq_ok_iff, ofWord_toWord, hclass]
  exact ⟨hfits, rfl⟩

/-! ## Commands -/

/-- A DATA frame whose two times fit their buses decodes to its value and times. -/
theorem decodeFrameAt_dataFrame {p : Config.Params} {v : Byte} {a b : Nat}
    (h : deliverableAt p (dataFrame v a b) = true) : decodeFrameAt p (dataFrame v a b) = .ok (.data v a b) :=
  (decodeFrameAt_eq_data_iff p _ v a b).2 ⟨Laws.cmd_commandFrame v 1 a b, h, Laws.value_commandFrame v 1 a b, rfl, rfl⟩

/-- A command frame is its value, command code and times. -/
theorem commandFrame_value_cmd (f : Frame) : commandFrame f.value f.cmd f.inStart f.inEnd = f := by
  have hword : commandWord f.value f.cmd = f.word := by
    apply BitVec.eq_of_toNat_eq
    rw [Laws.toNat_commandWord, Laws.cmd_toNat, Laws.value_toNat]
    omega
  rw [commandFrame, hword]

/-- What a command frame decodes to is well formed, agrees with every anchor, and is encoded with the frame's command code; a
DATA frame is encoded as itself. -/
theorem encode_of_decodeFrameAt {f : Frame} {i : Instr} (h : decodeFrameAt Config.params f = .ok i)
    (anchor : Option Nat) :
    wellFormed i = true ∧ agreesWithAnchor anchor i = true ∧
      ∃ g, encode i = .command g ∧ g.cmd = f.cmd ∧ (f.cmd = 1 → g = f) := by
  rcases Laws.decodeFrameAt_cases Config.params f with
    ⟨hcmd, hi⟩ | ⟨hcmd, hstart, hend, hi⟩ | ⟨-, -, hi⟩ | ⟨hcmd, hi⟩ | ⟨hcmd, hi⟩ <;> cases hi.symm.trans h
  · exact ⟨rfl, rfl, _, rfl, by rw [hcmd]; exact Laws.cmd_commandFrame 0 0 0 0, by rw [hcmd]; exact nofun⟩
  · refine ⟨by rw [wellFormed, wellFormedAt, hstart, hend, Bool.and_self], rfl, f, ?_, rfl, fun _ => rfl⟩
    rw [encode, ← hcmd, commandFrame_value_cmd]
  · exact ⟨rfl, rfl, _, rfl, by rw [hcmd]; exact Laws.cmd_commandFrame 0 2 0 0, by rw [hcmd]; exact nofun⟩
  · exact ⟨rfl, rfl, _, rfl, by rw [hcmd]; exact Laws.cmd_commandFrame 0 3 0 0, by rw [hcmd]; exact nofun⟩

/-! ## The two directions -/

/-- Settles O4: a command decodes from the code it is encoded with, and a packet class from its packet, whose class it is
because it is well formed and agrees with the anchor. -/
theorem decodeOfEncode : Obligations.DecodeOfEncode := by
  intro anchor i hwf hag
  cases i with
  | idle => exact decodeFrameAt_of_cmd_idle Config.params (Laws.cmd_commandFrame 0 0 0 0)
  | data v a b => exact decodeFrameAt_dataFrame hwf
  | other => exact decodeFrameAt_of_cmd_other Config.params (Laws.cmd_commandFrame 0 2 0 0)
  | sessionReset => exact decodeFrameAt_of_cmd_sessionReset Config.params (Laws.cmd_commandFrame 0 3 0 0)
  | invalidChecksum b a e => exact decode_encode_classInstr (c := .invalidChecksum) hwf hag
  | unitResponse b a e => exact decode_encode_classInstr (c := .unitResponse) hwf hag
  | panelFeatures b a e => exact decode_encode_classInstr (c := .panelFeatures) hwf hag
  | panelStatus b a e => exact decode_encode_classInstr (c := .panelStatus) hwf hag

/-- Settles O5: a packet decodes to the instruction of its class, whose bytes make the packet's word again, and a command to
one that is encoded with its code. -/
theorem encodeOfDecode : Obligations.EncodeOfDecode := by
  intro anchor e i h
  cases e with
  | command f =>
    obtain ⟨hwf, hag, hencode⟩ := encode_of_decodeFrameAt h anchor
    refine ⟨hwf, hag, nofun, ?_⟩
    rintro _ ⟨⟩
    exact hencode
  | packet w a e =>
    obtain ⟨hfits, rfl⟩ := (decode_packet_eq_ok_iff anchor w a e i).1 h
    obtain ⟨hwf, hag⟩ := (wellFormed_and_agrees_classInstr_iff anchor _ (Packet.ofWord w) a e).2 ⟨hfits, rfl⟩
    refine ⟨hwf, hag, ?_, nofun⟩
    rintro _ _ _ ⟨⟩
    rw [encode_classInstr, toWord_ofWord]

/-- Settles O1: each of the eight words is decoded by evaluation. -/
theorem sampleWordsDecode : Obligations.SampleWordsDecode := by
  unfold Obligations.SampleWordsDecode
  decide

/-! ## The step by what stands at the port -/

/-- Settles O9: the step takes the frame and runs what it decodes to. -/
theorem stepRunsDecodedInstruction : Obligations.StepRunsDecodedInstruction :=
  fun _ _ _ _ hs hi => step_of_decode hs hi

/-- Settles O10: with nothing at the port IDLE is what the step fetches. -/
theorem nothingAtThePortIsIdle : Obligations.NothingAtThePortIsIdle := by
  intro s hs
  simp only [step, fetchAt, hs]

/-- The decoder rejects exactly the DATA frames with a time that its bus cannot carry (I4). -/
theorem decodeFrameAt_eq_error_iff (p : Config.Params) (f : Frame) :
    decodeFrameAt p f = .error .timestampOutOfRange ↔ f.cmd = 1 ∧ (2 ^ p.tsW ≤ f.inStart ∨ 2 ^ p.tsW ≤ f.inEnd) := by
  have hoff : (2 ^ p.tsW ≤ f.inStart ∨ 2 ^ p.tsW ≤ f.inEnd) ↔ ¬ deliverableAt p f = true := by
    rw [deliverableAt_iff, not_and_or, not_lt, not_lt]
  rw [hoff]
  constructor
  · intro h
    rcases Laws.decodeFrameAt_cases p f with ⟨-, hi⟩ | ⟨-, -, -, hi⟩ | ⟨hcmd, hfits, -⟩ | ⟨-, hi⟩ | ⟨-, hi⟩
    case inr.inr.inl => exact ⟨hcmd, by simpa [deliverableAt] using hfits⟩
    all_goals cases hi.symm.trans h
  · rintro ⟨hcmd, hf⟩
    rw [deliverableAt] at hf
    simp [decodeFrameAt, hcmd, hf]

/-- Settles O11: no instruction is refused when it runs, so the step refuses exactly what the decoder rejects. -/
theorem refusesOnlyTimestampsOffTheBus : Obligations.RefusesOnlyTimestampsOffTheBus := by
  intro s r
  constructor
  · intro h
    rw [Laws.step_eq_stepAt] at h
    rcases Laws.stepAt_cases Config.params s with ⟨-, hstep⟩ | ⟨f, rest, i, -, -, hstep⟩ | ⟨f, rest, hs, hd, hstep⟩
    · cases hstep.symm.trans h
    · obtain ⟨t, ht, -⟩ := Laws.execAt_next Config.params i { s with input := rest }
      cases (hstep.trans ht).symm.trans h
    · cases hstep.symm.trans h
      exact ⟨rfl, f, rest, hs, (decodeFrameAt_eq_error_iff _ f).1 hd⟩
  · rintro ⟨rfl, f, rest, hs, hoff⟩
    simp only [step, fetchAt, hs, (decodeFrameAt_eq_error_iff _ f).2 hoff, refusalOf]

/-- Settles O52: a byte-data event is a DATA frame whatever its annotation, and the other two events have the codes of OTHER
and SESSION_RESET. -/
theorem upstreamMapping : Obligations.UpstreamMapping := fun v a b _ ha hb =>
  ⟨decodeFrameAt_dataFrame (p := Config.params) ((deliverableAt_iff _ (dataFrame v a b)).2 ⟨ha, hb⟩),
    decodeFrameAt_of_cmd_other _ (Laws.cmd_commandFrame 0 2 a b),
    decodeFrameAt_of_cmd_sessionReset _ (Laws.cmd_commandFrame 0 3 0 0)⟩

end Sys2Proof.Proofs.EncodingRoundTrip
end

section
/-! The variant of a packet's record (45_packet_emitter.md R180, R183): the three fields of the bundle that name it, by the
class of the packet. -/

namespace Sys2Proof.Proofs.RecordVariant

open Sys2Proof.Machine

/-- The fields that name the variant are the class (R183). -/
theorem variant_classRecord (c : PacketClass) (b : Packet) (a e : Nat) :
    (classRecord c b a e).bundle.kind = decide (c ≠ .invalidChecksum) ∧
      (classRecord c b a e).bundle.source = decide (c = .unitResponse) ∧
      (classRecord c b a e).bundle.features = decide (c = .panelFeatures) := by
  cases c with
  | invalidChecksum => exact ⟨rfl, rfl, rfl⟩
  | unitResponse =>
    simp only [classRecord, validRecord, decodeUnit, Record.bundle]
    cases noReading b.payload.p1 <;> exact ⟨rfl, rfl, rfl⟩
  | panelFeatures =>
    rw [PanelDecoder.classRecord_panelFeatures]
    cases featuresResidual b.payload <;> exact ⟨rfl, rfl, rfl⟩
  | panelStatus => exact ⟨rfl, rfl, rfl⟩

/-- A packet's class is INVALID_CHECKSUM exactly when it fails validation. -/
theorem packetClass_ne_invalidChecksum_iff (p : Config.Params) (anchor : Option Nat) (b : Packet) (a : Nat) :
    packetClass p anchor b a ≠ .invalidChecksum ↔ validate b = true := by
  rw [Ne, PacketEncoding.packetClass_eq_iff, PacketEncoding.validate_eq_true_iff, PacketEncoding.ClassCondition, not_not]

/-- A packet's record is a `ValidPacket` exactly when the packet validates (R121, R180). -/
theorem kind_eq_validate (p : Config.Params) (anchor : Option Nat) (b : Packet) (a e : Nat) :
    (classRecord (packetClass p anchor b a) b a e).bundle.kind = validate b := by
  obtain ⟨hkind, -⟩ := variant_classRecord (packetClass p anchor b a) b a e
  rw [hkind, Bool.eq_iff_iff, decide_eq_true_iff, packetClass_ne_invalidChecksum_iff]

end Sys2Proof.Proofs.RecordVariant
end

section
/-! The byte stream (20_memory.md R49, 60_exceptions.md R200, 70_reset_and_hazards.md R238): what every run over the frames
still to come keeps, by induction on its steps. -/

namespace Sys2Proof.Proofs.ByteStream

open Sys2Proof.Machine
open Sys2Proof.Proofs.InputCommand
open Sys2Proof.Proofs.FrameAggregator

/-! ## Runs -/

/-- A run of one more step that ends in a next state has a first step that answers one. -/
theorem coreAt_step_of_run_succ {p : Config.Params} {k : Nat} {s t : State} (h : (coreAt p).run (k + 1) s = .next t) :
    ∃ u, stepAt p s = .next u ∧ (coreAt p).run k u = .next t := by
  rcases hstep : stepAt p s with u | r | r
  · exact ⟨u, rfl, (Laws.coreAt_run_succ p k s u hstep).symm.trans h⟩
  · cases r
  · have hcore : (coreAt p).step s = .refused r := hstep
    simp [Host.Core.run, hcore] at h

/-- What every step keeps, every run keeps. -/
theorem coreAt_run_keeps {p : Config.Params} {Keeps : State → Prop}
    (hstep : ∀ s u, Keeps s → stepAt p s = .next u → Keeps u) {k : Nat} {s t : State} (hs : Keeps s)
    (h : (coreAt p).run k s = .next t) : Keeps t := by
  induction k generalizing s with
  | zero =>
    cases h
    exact hs
  | succ k ih =>
    obtain ⟨u, hu, hrun⟩ := coreAt_step_of_run_succ h
    exact ih (hstep s u hs hu) hrun

/-! ## No stream stops the block -/

/-- A step over deliverable frames takes the first of them; with none to come it is IDLE. -/
theorem step_of_streamDeliverable {s : State} (h : s.streamDeliverable) :
    ∃ u, step s = .next u ∧ u.input = s.input.drop 1 := by
  rcases hs : s.input with _ | ⟨f, rest⟩
  · exact ⟨_, EncodingRoundTrip.nothingAtThePortIsIdle s hs, hs⟩
  · exact step_of_deliverable hs (h f (hs ▸ List.mem_cons_self))

/-- Settles O12: every step takes one deliverable frame and leaves the deliverable frames behind it, by induction on the
steps. -/
theorem neverStopsConsuming : Obligations.NeverStopsConsuming := by
  intro k
  induction k with
  | zero => exact fun s _ => ⟨s, rfl, rfl⟩
  | succ k ih =>
    intro s hs
    obtain ⟨u, hstep, hu⟩ := step_of_streamDeliverable hs
    have hdeliverable : u.streamDeliverable := fun f hf => hs f (List.mem_of_mem_drop (hu ▸ hf))
    obtain ⟨t, hrun, ht⟩ := ih u hdeliverable
    refine ⟨t, (Laws.core_run_succ k s u hstep).trans hrun, ?_⟩
    rw [ht, hu, List.drop_drop, Nat.add_comm]

/-! ## Framing reads no byte value -/

/-- The gap test reads the times alone. -/
theorem gapFiresAt_congr {p : Config.Params} {s₁ s₂ : State} (h : s₁.prevEnd = s₂.prevEnd) (a : Nat) :
    s₁.gapFiresAt p a ↔ s₂.gapFiresAt p a := by
  rw [State.gapFiresAt, State.gapFiresAt, h]

/-- Two bytes with the same times keep the framing, whatever their values. -/
theorem exec_data_sameFraming {s₁ s₂ t₁ t₂ : State} {v w : Byte} {a b : Nat} (h : s₁.sameFraming s₂)
    (h₁ : exec (.data v a b) s₁ = .next t₁) (h₂ : exec (.data w a b) s₂ = .next t₂) : t₁.sameFraming t₂ := by
  obtain ⟨hcnt, hfirst, hprev, hanchor, -, -, -⟩ := h
  have hgaps : s₁.gapFiresAt Config.params a ↔ s₂.gapFiresAt Config.params a := gapFiresAt_congr hprev a
  by_cases hgap : s₁.gapFiresAt Config.params a
  · cases (Laws.execDataAt_discard _ v a b s₁ hgap).symm.trans h₁
    cases (Laws.execDataAt_discard _ w a b s₂ (hgaps.1 hgap)).symm.trans h₂
    exact ⟨rfl, rfl, rfl, hanchor, rfl, rfl, rfl⟩
  · have hgap₂ := mt hgaps.2 hgap
    rcases Nat.lt_or_ge s₁.cnt.val 5 with hless | hfive
    · obtain ⟨k₁, hexec₁, -, hcnt₁, hfirst₁, hprev₁⟩ := Laws.execDataAt_hold _ v a b s₁ hgap hless
      obtain ⟨k₂, hexec₂, -, hcnt₂, hfirst₂, hprev₂⟩ := Laws.execDataAt_hold _ w a b s₂ hgap₂ (hcnt ▸ hless)
      cases hexec₁.symm.trans h₁
      cases hexec₂.symm.trans h₂
      refine ⟨Fin.ext ?_, ?_, hprev₁.trans hprev₂.symm, hanchor, rfl, rfl, rfl⟩
      · exact hcnt₁.trans (by rw [hcnt, ← hcnt₂]; rfl)
      · exact hfirst₁.trans (by rw [hfirst, ← hfirst₂]; rfl)
    · have hfive : s₁.cnt.val = 5 := by omega
      obtain ⟨q₁, start₁, -, hstart₁, rfl⟩ := PacketEmitter.state_of_exec_data_of_sixth ⟨hfive, hgap⟩ h₁
      obtain ⟨q₂, start₂, -, hstart₂, rfl⟩ := PacketEmitter.state_of_exec_data_of_sixth ⟨hcnt ▸ hfive, hgap₂⟩ h₂
      obtain rfl : start₁ = start₂ := Option.some.inj (by rw [← hstart₁, ← hstart₂, hfirst])
      obtain ⟨hvalid₁, -, ha₁, hb₁⟩ :=
        Laws.classRecord_bundle (packetClass Config.params s₁.anchor q₁ start₁) q₁ start₁ b
      obtain ⟨hvalid₂, -, ha₂, hb₂⟩ :=
        Laws.classRecord_bundle (packetClass Config.params s₂.anchor q₂ start₁) q₂ start₁ b
      exact ⟨rfl, rfl, rfl, rfl, hvalid₁.trans hvalid₂.symm, ha₁.trans ha₂.symm, hb₁.trans hb₂.symm⟩

/-- An instruction keeps the framing: it reads none of the bytes held (R49). -/
theorem exec_sameFraming {i : Instr} {s₁ s₂ t₁ t₂ : State} (h : s₁.sameFraming s₂) (h₁ : exec i s₁ = .next t₁)
    (h₂ : exec i s₂ = .next t₂) : t₁.sameFraming t₂ := by
  cases i with
  | data v a b => exact exec_data_sameFraming h h₁ h₂
  | idle | other =>
    obtain ⟨hcnt, hfirst, hprev, hanchor, -, -, -⟩ := h
    cases h₁
    cases h₂
    exact ⟨hcnt, hfirst, hprev, hanchor, rfl, rfl, rfl⟩
  | _ =>
    cases h₁
    cases h₂
    exact ⟨rfl, rfl, rfl, rfl, rfl, rfl, rfl⟩

/-- A frame with DATA's code decodes only to its value and times. -/
theorem eq_data_of_decodeFrameAt {p : Config.Params} {f : Frame} {i : Instr} (hcmd : f.cmd = 1)
    (h : decodeFrameAt p f = .ok i) : i = .data f.value f.inStart f.inEnd := by
  by_cases hf : deliverableAt p f = true
  · exact Except.ok.inj (h.symm.trans (decodeFrameAt_of_cmd_data hcmd hf))
  · rw [deliverableAt] at hf
    simp [decodeFrameAt, hcmd, hf] at h

/-- Two frames that differ only in their values decode to the same command, or to two DATA commands with the same times. -/
theorem decodeFrameAt_sameButValue {p : Config.Params} {f g : Frame} {i j : Instr} (h : Frame.sameButValue f g)
    (hi : decodeFrameAt p f = .ok i) (hj : decodeFrameAt p g = .ok j) :
    i = j ∨ ∃ v w a b, i = .data v a b ∧ j = .data w a b := by
  obtain ⟨hcmd, hstart, hend⟩ := h
  by_cases hdata : f.cmd = 1
  · obtain rfl := eq_data_of_decodeFrameAt hdata hi
    obtain rfl := eq_data_of_decodeFrameAt (hcmd ▸ hdata) hj
    exact .inr ⟨f.value, g.value, f.inStart, f.inEnd, rfl, by rw [hstart, hend]⟩
  · exact .inl (Except.ok.inj (hi.symm.trans ((decodeFrameAt_congr p hcmd hdata).trans hj)))

/-- One step of two runs whose frames differ only in their values keeps the framing, and leaves such frames to come. -/
theorem step_sameFraming {s₁ s₂ t₁ t₂ : State} (h : s₁.sameFraming s₂)
    (hinput : List.Forall₂ Frame.sameButValue s₁.input s₂.input) (h₁ : step s₁ = .next t₁) (h₂ : step s₂ = .next t₂) :
    t₁.sameFraming t₂ ∧ List.Forall₂ Frame.sameButValue t₁.input t₂.input := by
  generalize hs₁ : s₁.input = l₁ at hinput
  generalize hs₂ : s₂.input = l₂ at hinput
  cases hinput with
  | nil =>
    rw [EncodingRoundTrip.nothingAtThePortIsIdle _ hs₁] at h₁
    rw [EncodingRoundTrip.nothingAtThePortIsIdle _ hs₂] at h₂
    refine ⟨exec_sameFraming h h₁ h₂, ?_⟩
    cases h₁
    cases h₂
    rw [Laws.driveNothing_input, Laws.driveNothing_input, hs₁, hs₂]
    exact .nil
  | @cons f g rest₁ rest₂ hframe hrest =>
    obtain ⟨i, hi⟩ := ResetAtomicity.decode_of_step_next hs₁ h₁
    obtain ⟨j, hj⟩ := ResetAtomicity.decode_of_step_next hs₂ h₂
    obtain ⟨hrest₁, -⟩ := ResetAtomicity.step_with_rest hs₁ h₁
    obtain ⟨hrest₂, -⟩ := ResetAtomicity.step_with_rest hs₂ h₂
    rw [step_of_decode hs₁ hi] at h₁
    rw [step_of_decode hs₂ hj] at h₂
    refine ⟨?_, by rwa [hrest₁, hrest₂]⟩
    rcases decodeFrameAt_sameButValue hframe hi hj with rfl | ⟨v, w, a, b, rfl, rfl⟩
    · exact exec_sameFraming (s₁ := { s₁ with input := rest₁ }) (s₂ := { s₂ with input := rest₂ }) h h₁ h₂
    · exact exec_data_sameFraming (s₁ := { s₁ with input := rest₁ }) (s₂ := { s₂ with input := rest₂ }) h h₁ h₂

/-- Settles O49: each step keeps the framing, by induction on the steps of the two runs. -/
theorem framingIgnoresByteValues : Obligations.FramingIgnoresByteValues := by
  intro k
  induction k with
  | zero =>
    intro s₁ s₂ t₁ t₂ h _ h₁ h₂
    cases h₁
    cases h₂
    exact h
  | succ k ih =>
    intro s₁ s₂ t₁ t₂ h hinput h₁ h₂
    obtain ⟨u₁, hstep₁, hrun₁⟩ := ResetAtomicity.step_of_core_run_succ h₁
    obtain ⟨u₂, hstep₂, hrun₂⟩ := ResetAtomicity.step_of_core_run_succ h₂
    obtain ⟨hu, hrest⟩ := step_sameFraming h hinput hstep₁ hstep₂
    exact ih u₁ u₂ t₁ t₂ hu hrest hrun₁ hrun₂

/-! ## Bytes that are each a gap apart -/

/-- No record, at most one byte held, and DATA frames to come, each more than `GAP_MAX` after the byte before it: the held
byte or the frame before. -/
structure AllGaps (p : Config.Params) (s : State) : Prop where
  atMostOne : s.cnt.val ≤ 1
  allData : ∀ f ∈ s.input, f.cmd = 1
  gapBeforeFirst : ∀ f rest, s.input = f :: rest → s.cnt.val = 1 → s.gapFiresAt p f.inStart
  gapsBetween : s.input.IsChain (fun f g => f.inEnd + p.gapMax < g.inStart)
  silent : s.out = .noRecord

/-- A DATA byte on an empty buffer, or a gap after the bytes held, is held alone. -/
theorem execDataAt_alone {p : Config.Params} {s : State} {v : Byte} {a b : Nat}
    (h : s.cnt.val ≠ 0 → s.gapFiresAt p a) : execDataAt p v a b s = .next (s.hold (.fill1 v a b)) := by
  by_cases hcnt : s.cnt.val = 0
  · have hempty : s.buffer = .empty := (Laws.cnt_eq_zero_iff _).1 (Fin.ext hcnt)
    have hprev : s.prevEnd = none := (Laws.prevEnd_eq_none_iff _).2 hempty
    rw [execDataAt, afterGapTest_of_prevEnd_eq_none hprev]
    rfl
  · exact Laws.execDataAt_discard p v a b s (h hcnt)

/-- A step holds the one new byte alone, so the same is true of the state it leaves. -/
theorem stepAt_allGaps {p : Config.Params} {s u : State} (h : AllGaps p s) (hstep : stepAt p s = .next u) :
    AllGaps p u := by
  rcases Laws.stepAt_cases p s with ⟨-, hidle⟩ | ⟨f, rest, i, hs, hi, hexec⟩ | ⟨-, -, -, -, hrefused⟩
  · cases hidle.symm.trans hstep
    exact ⟨h.atMostOne, h.allData, h.gapBeforeFirst, h.gapsBetween, rfl⟩
  · have hcmd : f.cmd = 1 := h.allData f (hs ▸ List.mem_cons_self)
    obtain rfl := eq_data_of_decodeFrameAt hcmd hi
    have hgap : s.cnt.val ≠ 0 → s.gapFiresAt p f.inStart := fun hne =>
      h.gapBeforeFirst f rest hs (by have := h.atMostOne; omega)
    have halone := execDataAt_alone (s := { s with input := rest }) (v := f.value) (b := f.inEnd) hgap
    cases (hexec.trans halone).symm.trans hstep
    have hdata := h.allData
    have hchain := h.gapsBetween
    rw [hs] at hdata hchain
    refine ⟨le_refl _, fun g hg => hdata g (List.mem_cons_of_mem _ hg), ?_, hchain.tail, rfl⟩
    rintro g rest' rfl -
    exact (gapFiresAt_iff_of_prevEnd rfl _).2 hchain.rel
  · cases hrefused.symm.trans hstep

/-- Settles O50: every step keeps `AllGaps`, which says that no record is driven. -/
theorem tooSmallGapMaxEmitsNothing : Obligations.TooSmallGapMaxEmitsNothing :=
  fun p _ _ _ hcnt hdata hfirst hchain hout hrun =>
    (coreAt_run_keeps (Keeps := AllGaps p) (fun _ _ => stepAt_allGaps) ⟨hcnt, hdata, hfirst, hchain, hout⟩ hrun).silent

/-! ## `PKT` and `PKTC` -/

/-- `PKT t w` is six DATA frames with no gap between them: the run completes the packet, with its class (R75). -/
theorem run_pkt {s : State} {t w : Nat} {b : Packet} {rest : List Frame} (hcnt : s.cnt = 0)
    (hbus : t + 6 * w < 2 ^ Config.params.tsW) (hs : s.input = pkt t w b ++ rest) :
    core.run 6 s = exec (decodePacket s.anchor b t (t + 6 * w)) { s with input := rest } := by
  have hdeliverable : ∀ f ∈ s.input.take 6, deliverableAt Config.params f = true := by
    intro f hf
    rw [deliverableAt_iff]
    simp only [hs, pkt, List.cons_append, List.nil_append, List.take_succ_cons, List.take_zero, List.mem_cons,
      List.not_mem_nil, or_false] at hf
    rcases hf with rfl | rfl | rfl | rfl | rfl | rfl <;>
      simp only [dataFrame, Laws.inStart_commandFrame, Laws.inEnd_commandFrame] <;> omega
  obtain ⟨-, hrun, -⟩ := sixBytesGiveOneRecord s b t (t + w) (t + w) (t + 2 * w) (t + 2 * w) (t + 3 * w) (t + 3 * w)
    (t + 4 * w) (t + 4 * w) (t + 5 * w) (t + 5 * w) (t + 6 * w) rest hcnt hs hdeliverable (by omega) (by omega)
    (by omega) (by omega) (by omega)
  exact hrun

/-- Settles O23: the packet's class drives its bytes and times, and with the checksum as trailer the class is not
INVALID_CHECKSUM. -/
theorem pktNotationGivesThePacket : Obligations.PktNotationGivesThePacket := by
  intro s t w b rest hcnt hbus
  refine ⟨fun hs => ?_, fun hs => ?_⟩
  · have hrun := run_pkt hcnt hbus hs
    rw [exec_decodePacket] at hrun
    exact ⟨_, hrun, Laws.classRecord_bundle _ b t (t + 6 * w)⟩
  · have hrun := run_pkt hcnt hbus hs
    rw [exec_decodePacket] at hrun
    obtain ⟨hvalid, hbytes, hstart, hend⟩ := Laws.classRecord_bundle
      (packetClass Config.params s.anchor (Payload.packet b.payload (checksum b.payload)) t)
      (Payload.packet b.payload (checksum b.payload)) t (t + 6 * w)
    have hkind := RecordVariant.kind_eq_validate Config.params s.anchor
      (Payload.packet b.payload (checksum b.payload)) t (t + 6 * w)
    refine ⟨_, hrun, hvalid, hkind.trans (ErrorReports.validate_packet_checksum b.payload), ?_, hstart, hend⟩
    rw [Laws.completePacket_out, hbytes]
    rfl

end Sys2Proof.Proofs.ByteStream
end

section
/-! The other views of the block (10_state.md R20, R21, R34): the full event list, and the registers with any value in the
unspecified ones, each simulate the machine step by step. -/

namespace Sys2Proof.Proofs.BlockViews

open Sys2Proof.Machine
open Sys2Proof.Proofs.FrameAggregator

/-! ## The event list -/

/-- The last event's end is `prev_end` (R20). -/
theorem prevEnd_of_bufferOf {es : List ByteEvent} {k : Buffer} (h : bufferOf es = some k) :
    k.prevEnd = es.getLast?.map ByteEvent.endTime := by
  unfold bufferOf at h
  split at h <;> cases h <;> rfl

/-- The gap test over the events is the machine's (R103). -/
theorem discards_of_bufferOf {l : EventBlock} {k : Buffer} (h : bufferOf l.buffer = some k) (p : Config.Params)
    (e : ByteEvent) : l.discards p e = k.discards p e.startTime := by
  rw [EventBlock.discards, Buffer.discards, prevEnd_of_bufferOf h]
  cases l.buffer.getLast? <;> rfl

/-- The events that the gap test leaves stand for the buffer that it leaves. -/
theorem bufferOf_afterGapTest {l : EventBlock} {k : Buffer} (h : bufferOf l.buffer = some k) (p : Config.Params)
    (e : ByteEvent) :
    bufferOf (if l.discards p e then [] else l.buffer) = some (k.afterGapTest p e.startTime) := by
  rw [discards_of_bufferOf h, Buffer.afterGapTest]
  split
  · rfl
  · exact h

/-- Where the machine holds the byte, the events with the new one stand for the longer buffer. -/
theorem bufferOf_append_of_held {es : List ByteEvent} {k k' : Buffer} {e : ByteEvent} (h : bufferOf es = some k)
    (hheld : k.append e.value e.startTime e.endTime = .held k') : bufferOf (es ++ [e]) = some k' := by
  unfold bufferOf at h
  split at h <;> cases h <;> cases hheld <;> rfl

/-- Where the machine completes a packet, the events are its first five bytes. -/
theorem events_of_complete {es : List ByteEvent} {k : Buffer} {e : ByteEvent} {q : Packet} {t u : Nat}
    (h : bufferOf es = some k) (hcomplete : k.append e.value e.startTime e.endTime = .complete q t u) :
    ∃ e0 e1 e2 e3 e4 : ByteEvent, es = [e0, e1, e2, e3, e4] ∧
      q = ⟨e0.value, e1.value, e2.value, e3.value, e4.value, e.value⟩ ∧ t = e0.startTime ∧ u = e.endTime := by
  unfold bufferOf at h
  split at h <;> cases h <;> cases hcomplete
  exact ⟨_, _, _, _, _, rfl, rfl, rfl, rfl⟩

/-- Fewer than six events emit nothing (R102). -/
theorem ingest_of_bufferOf {p : Config.Params} {l : EventBlock} {e : ByteEvent} {k : Buffer}
    (h : bufferOf ((if l.discards p e then [] else l.buffer) ++ [e]) = some k) :
    l.ingest p e = (⟨(if l.discards p e then [] else l.buffer) ++ [e], l.lastEnd⟩, none) := by
  rw [EventBlock.ingest]
  split
  case h_1 hsix =>
    rw [hsix] at h
    cases h
  case h_2 => rfl

/-- Six events emit the record of their packet's class (R102, R180). -/
theorem ingest_of_six {p : Config.Params} {l : EventBlock} {e e0 e1 e2 e3 e4 : ByteEvent} {q : Packet}
    (h : (if l.discards p e then [] else l.buffer) = [e0, e1, e2, e3, e4])
    (hq : q = ⟨e0.value, e1.value, e2.value, e3.value, e4.value, e.value⟩) :
    l.ingest p e =
      (⟨[], some e.endTime⟩,
        some (classRecord (packetClass p l.lastEnd q e0.startTime) q e0.startTime e.endTime)) := by
  subst hq
  rw [EventBlock.ingest, h]
  rfl

/-- A byte over the event list does what DATA does to the state that the list shows. -/
theorem ingest_simulates {l : EventBlock} {s : State} (h : l.shows s) (v : Byte) (a b : Nat) :
    ∃ t, exec (.data v a b) s = .next t ∧
      (l.ingest Config.params ⟨v, a, b⟩).1.shows t ∧ t.out = outputOf (l.ingest Config.params ⟨v, a, b⟩).2 := by
  obtain ⟨hbuffer, hanchor⟩ := h
  have hkept := bufferOf_afterGapTest hbuffer Config.params ⟨v, a, b⟩
  rcases happend : (s.buffer.afterGapTest Config.params a).append v a b with k | ⟨q, t, u⟩
  · have hevents := bufferOf_append_of_held (e := ⟨v, a, b⟩) hkept happend
    refine ⟨_, exec_data_of_held happend, ?_⟩
    rw [ingest_of_bufferOf hevents]
    exact ⟨⟨hevents, hanchor⟩, rfl⟩
  · obtain ⟨e0, e1, e2, e3, e4, hfive, hq, rfl, rfl⟩ := events_of_complete (e := ⟨v, a, b⟩) hkept happend
    refine ⟨_, (exec_data_of_complete happend).trans (exec_decodePacket ..), ?_⟩
    rw [ingest_of_six hfive hq, hanchor]
    exact ⟨⟨rfl, rfl⟩, rfl⟩

/-- Settles O56: a byte simulates DATA, IDLE and OTHER leave what is shown, and both views of a cleared session are
empty. -/
theorem eventListBlockIsEquivalent : Obligations.EventListBlockIsEquivalent := fun _ s v a b h =>
  ⟨ingest_simulates h v a b, ⟨_, exec_idle s, h, rfl⟩, ⟨_, exec_other s, h, rfl⟩,
    ⟨_, RecordAndReset.exec_sessionReset s, ⟨rfl, rfl⟩, rfl⟩⟩

/-! ## The registers -/

/-- The registers that the gap test leaves: the count 0 where it fires (R103). -/
def registersAfterGapTest (p : Config.Params) (r : RegisterBlock) (a : Nat) : RegisterBlock :=
  if r.buffer.discards p a then { r with cnt := 0 } else r

/-- `prev_end` of the registers means something exactly when `cnt > 0` (R20). -/
theorem prevEnd_buffer (r : RegisterBlock) : r.buffer.prevEnd = if 0 < r.cnt.val then some r.prevEnd else none := by
  obtain ⟨cnt, buf, firstStart, prevEnd, anchorValid, lastEnd⟩ := r
  fin_cases cnt <;> rfl

/-- The hardware form of the gap test is the machine's (R103). -/
theorem discards_buffer_iff (p : Config.Params) (r : RegisterBlock) (a : Nat) :
    r.buffer.discards p a = true ↔ 0 < r.cnt.val ∧ a > r.prevEnd + p.gapMax := by
  rw [Buffer.discards, prevEnd_buffer]
  by_cases hcnt : 0 < r.cnt.val
  · simp only [hcnt, if_true, gapExceeded, decide_eq_true_eq, true_and]
    omega
  · simp [hcnt]

/-- The registers that the gap test leaves show the buffer that it leaves. -/
theorem buffer_registersAfterGapTest (p : Config.Params) (r : RegisterBlock) (a : Nat) :
    (registersAfterGapTest p r a).buffer = r.buffer.afterGapTest p a := by
  rw [registersAfterGapTest, Buffer.afterGapTest]
  split <;> rfl

theorem anchor_registersAfterGapTest (p : Config.Params) (r : RegisterBlock) (a : Nat) :
    (registersAfterGapTest p r a).anchor = r.anchor := by
  rw [registersAfterGapTest]
  split <;> rfl

/-- The pseudocode after the gap test: the append over the registers. -/
def registersAppend (p : Config.Params) (r : RegisterBlock) (v : Byte) (a b : Nat) : RegisterBlock × Bundle :=
  if h : r.cnt.val < 5 then
    ({ r with
        firstStart := if r.cnt.val = 0 then a else r.firstStart
        buf := r.buf.set r.cnt.val v, prevEnd := b, cnt := ⟨r.cnt.val + 1, by omega⟩ }, .noRecord)
  else
    { r with cnt := 0 }.emitPacket p ⟨r.buf[0], r.buf[1], r.buf[2], r.buf[3], r.buf[4], v⟩ r.firstStart b

/-- The pseudocode of R102 is the gap test and then the append: the count is written in either case. -/
theorem dataStep_eq (p : Config.Params) (r : RegisterBlock) (v : Byte) (a b : Nat) :
    r.dataStep p v a b = registersAppend p (registersAfterGapTest p r a) v a b := by
  by_cases hgap : 0 < r.cnt.val ∧ a > r.prevEnd + p.gapMax
  · rw [registersAfterGapTest, if_pos ((discards_buffer_iff p r a).2 hgap)]
    simp [RegisterBlock.dataStep, registersAppend, hgap]
  · rw [registersAfterGapTest, if_neg (mt (discards_buffer_iff p r a).1 hgap)]
    simp only [RegisterBlock.dataStep, registersAppend, if_neg hgap]
    by_cases hcnt : r.cnt.val = 0
    · simp [hcnt]
    · simp only [if_neg hcnt]

/-- Below five bytes the registers hold one more byte, as the machine does. -/
theorem registersAppend_held {r : RegisterBlock} (h : r.cnt.val < 5) (p : Config.Params) (v : Byte) (a b : Nat) :
    ∃ r', registersAppend p r v a b = (r', .noRecord) ∧ r.buffer.append v a b = .held r'.buffer ∧
      r'.anchor = r.anchor := by
  rw [registersAppend, dif_pos h]
  refine ⟨_, rfl, ?_, rfl⟩
  obtain ⟨cnt, buf, firstStart, prevEnd, anchorValid, lastEnd⟩ := r
  fin_cases cnt <;> simp [RegisterBlock.buffer, Buffer.append] at h ⊢

/-- At five bytes the registers emit the packet that the machine completes, and are left empty with its end as anchor. -/
theorem registersAppend_complete {r : RegisterBlock} (h : r.cnt.val = 5) (p : Config.Params) (v : Byte) (a b : Nat) :
    ∃ q r', registersAppend p r v a b =
        (r', (classRecord (packetClass p r.anchor q r.firstStart) q r.firstStart b).bundle) ∧
      r.buffer.append v a b = .complete q r.firstStart b ∧ r'.buffer = .empty ∧ r'.anchor = some b := by
  rw [registersAppend, dif_neg (by omega)]
  refine ⟨_, _, rfl, ?_, rfl, rfl⟩
  rw [RegisterBlock.buffer, h]
  rfl

/-- The pseudocode of DATA over the registers does what DATA does to the state that they show. -/
theorem dataStep_simulates {r : RegisterBlock} {s : State} (h : r.shows s) (v : Byte) (a b : Nat) :
    ∃ t, exec (.data v a b) s = .next t ∧
      (r.dataStep Config.params v a b).1.shows t ∧ t.out = (r.dataStep Config.params v a b).2 := by
  obtain ⟨hbuffer, hanchor⟩ := h
  have hkept := buffer_registersAfterGapTest Config.params r a
  have hanchor' := (anchor_registersAfterGapTest Config.params r a).trans hanchor
  rw [hbuffer] at hkept
  rw [dataStep_eq]
  rcases Nat.lt_or_ge (registersAfterGapTest Config.params r a).cnt.val 5 with hless | hfive
  · obtain ⟨r', hstep, happend, hr'⟩ := registersAppend_held hless Config.params v a b
    rw [hkept] at happend
    refine ⟨_, exec_data_of_held happend, ?_⟩
    rw [hstep]
    exact ⟨⟨rfl, hr'.trans hanchor'⟩, rfl⟩
  · obtain ⟨q, r', hstep, happend, hempty, hend⟩ :=
      registersAppend_complete (r := registersAfterGapTest Config.params r a) (by omega) Config.params v a b
    rw [hkept] at happend
    refine ⟨_, (exec_data_of_complete happend).trans (exec_decodePacket ..), ?_⟩
    rw [hstep, hanchor']
    exact ⟨⟨hempty, hend⟩, rfl⟩

/-- Settles O57: the pseudocode of DATA simulates DATA, IDLE and OTHER leave what is shown, and after SESSION_RESET the count
0 and the invalid anchor hide every other register. -/
theorem registerBlockIsEquivalent : Obligations.RegisterBlockIsEquivalent := fun _ s v a b h =>
  ⟨dataStep_simulates h v a b, ⟨_, exec_idle s, h, rfl⟩, ⟨_, exec_other s, h, rfl⟩,
    ⟨_, RecordAndReset.exec_sessionReset s, ⟨rfl, rfl⟩, rfl⟩⟩

end Sys2Proof.Proofs.BlockViews
end

section
/-! The invariant (10_state.md R20, R31; 45_packet_emitter.md R183): the timestamps held and driven fit their bus, and the
bundle is one of the allowed columns, after reset and after every step. -/

namespace Sys2Proof.Proofs.StateInvariant

open Sys2Proof.Machine
open Sys2Proof.Proofs.InputCommand
open Sys2Proof.Proofs.PacketEncoding
open Sys2Proof.Proofs.PayloadFields

/-! ## The bundle of a packet's class is legal -/

theorem legalInvalid_classRecord {b : Packet} (h : validate b = false) (a e : Nat) :
    (classRecord .invalidChecksum b a e).bundle.legalInvalid := ⟨rfl, h⟩

theorem legalUnit_classRecord {b : Packet} (h : validate b = true) (a e : Nat) :
    (classRecord .unitResponse b a e).bundle.legalUnit := by
  rw [classRecord_unitResponse]
  cases hflag : noReading b.b1 <;> exact ⟨rfl, h, (congrArg not hflag).symm⟩

theorem legalFeatures_classRecord {b : Packet} (h : validate b = true) (hsel : featuresSelected b.b0 = true)
    (a e : Nat) : (classRecord .panelFeatures b a e).bundle.legalFeatures := by
  rw [PanelDecoder.classRecord_panelFeatures]
  by_cases hzero : b.b1 = 0 ∧ b.b2 = 0 ∧ b.b3 = 0
  · rw [PanelDecoder.featuresResidual_of_zero (p := b.payload) hzero]
    exact ⟨rfl, h, hsel, iff_of_false Bool.false_ne_true (not_not_intro hzero)⟩
  · rw [PanelDecoder.featuresResidual_of_not_zero (p := b.payload) hzero]
    exact ⟨rfl, h, hsel, iff_of_true rfl hzero⟩

theorem legalStatus_classRecord {b : Packet} (h : validate b = true) (hsel : featuresSelected b.b0 = false)
    (a e : Nat) : (classRecord .panelStatus b a e).bundle.legalStatus := by
  have htemp : (classRecord .panelStatus b a e).bundle.roomTempHalf.toNat = b.b1.toNat + 20 :=
    toNat_roomTempHalf b.payload
  have hset : (classRecord .panelStatus b a e).bundle.setTemp.toNat = b.b2.toNat % 16 + 16 := toNat_setTemp b.payload
  have hbyte := b.b1.isLt
  exact ⟨rfl, h, hsel, by omega, by omega, by omega⟩

/-- A completed packet drives the column of its class (R180, R183). -/
theorem legal_classRecord (p : Config.Params) (anchor : Option Nat) (b : Packet) (a e : Nat) :
    (classRecord (packetClass p anchor b a) b a e).bundle.legal := by
  rcases Laws.packetClass_cases p anchor b a with
    ⟨hclass, hv⟩ | ⟨hclass, hv, -⟩ | ⟨hclass, hv, -, hsel⟩ | ⟨hclass, hv, -, hsel⟩ <;> rw [hclass]
  · exact .inr (.inl (legalInvalid_classRecord hv a e))
  · exact .inr (.inr (.inl (legalUnit_classRecord hv a e)))
  · exact .inr (.inr (.inr (.inl (legalFeatures_classRecord hv hsel a e))))
  · exact .inr (.inr (.inr (.inr (legalStatus_classRecord hv hsel a e))))

/-! ## What each outcome of a step keeps -/

/-- A state that drives no record meets the invariant when the times it holds fit. -/
theorem inv_of_noRecord {s : State} (hfirst : optionFits Config.params s.firstStart = true)
    (hprev : optionFits Config.params s.prevEnd = true) (hanchor : optionFits Config.params s.anchor = true)
    (hout : s.out = .noRecord) : s.Inv := by
  refine ⟨hfirst, hprev, hanchor, ?_, ?_, .inl hout⟩ <;> rw [hout] <;> exact Laws.fits_zero _

/-- Settles O58: reset holds and drives no timestamp but 0. -/
theorem resetMeetsTheInvariant : Obligations.ResetMeetsTheInvariant :=
  inv_of_noRecord rfl rfl rfl rfl

/-- A completed packet meets the invariant when its two times fit. -/
theorem inv_completePacket {p : Config.Params} {anchor : Option Nat} {q : Packet} {a e : Nat} (s : State)
    (ha : Config.params.fits a = true) (he : Config.params.fits e = true) :
    (s.completePacket (classRecord (packetClass p anchor q a) q a e) e).Inv := by
  obtain ⟨-, -, hstart, hend⟩ := Laws.classRecord_bundle (packetClass p anchor q a) q a e
  refine ⟨rfl, rfl, he, ?_, ?_, legal_classRecord p anchor q a e⟩
  · rwa [Laws.completePacket_out, hstart]
  · rwa [Laws.completePacket_out, hend]

/-- DATA keeps the invariant when its two times fit: a held byte adds its own times, and a completed packet has the first
byte's start and this byte's end (R109). -/
theorem inv_exec_data {s t : State} {v : Byte} {a b : Nat} (h : s.Inv) (ha : Config.params.fits a = true)
    (hb : Config.params.fits b = true) (hexec : exec (.data v a b) s = .next t) : t.Inv := by
  obtain ⟨hfirst, -, hanchor, -⟩ := h
  by_cases hgap : s.gapFiresAt Config.params a
  · cases (Laws.execDataAt_discard _ v a b s hgap).symm.trans hexec
    exact inv_of_noRecord ha hb hanchor rfl
  · rcases Nat.lt_or_ge s.cnt.val 5 with hless | hfive
    · obtain ⟨k, hheld, -, -, hk, hkend⟩ := Laws.execDataAt_hold _ v a b s hgap hless
      cases hheld.symm.trans hexec
      refine inv_of_noRecord ?_ ?_ hanchor rfl
      · rw [State.firstStart, Laws.hold_buffer, hk]
        cases hs : s.firstStart with
        | none => exact ha
        | some start => rwa [hs] at hfirst
      · rw [State.prevEnd, Laws.hold_buffer, hkend]
        exact hb
    · obtain ⟨q, start, -, hstart, rfl⟩ := PacketEmitter.state_of_exec_data_of_sixth ⟨by omega, hgap⟩ hexec
      rw [hstart] at hfirst
      exact inv_completePacket s hfirst hb

/-- IDLE and OTHER hold what was held and drive nothing. -/
theorem inv_driveNothing {s : State} (h : s.Inv) : s.driveNothing.Inv := by
  obtain ⟨hfirst, hprev, hanchor, -⟩ := h
  exact inv_of_noRecord hfirst hprev hanchor rfl

/-- Settles O59: the decoder lets only times that fit reach DATA, and the other commands bring no time. -/
theorem stepKeepsTheInvariant : Obligations.StepKeepsTheInvariant := by
  intro s t h hstep
  rcases hs : s.input with _ | ⟨f, rest⟩
  · cases (EncodingRoundTrip.nothingAtThePortIsIdle s hs).symm.trans hstep
    exact inv_driveNothing h
  · have hrest : State.Inv { s with input := rest } := h
    obtain ⟨i, hi⟩ := ResetAtomicity.decode_of_step_next hs hstep
    have hexec := (step_of_decode hs hi).symm.trans hstep
    rcases Laws.decodeFrameAt_cases Config.params f with
      ⟨-, hd⟩ | ⟨-, ha, hb, hd⟩ | ⟨-, -, hd⟩ | ⟨-, hd⟩ | ⟨-, hd⟩ <;> cases hd.symm.trans hi
    · cases hexec
      exact inv_driveNothing hrest
    · exact inv_exec_data hrest ha hb hexec
    · cases hexec
      exact inv_driveNothing hrest
    · cases hexec
      exact inv_of_noRecord rfl rfl rfl rfl

end Sys2Proof.Proofs.StateInvariant
end

section
/-! The payload bits that a record reports (30_encoding.md R71, 44_panel_decoder.md R161): each decoder as the masks of the
bits it reads, and what changing an unread bit changes. -/

namespace Sys2Proof.Proofs.ReportedBits

open Sys2Proof.Machine
open Sys2Proof.Proofs.PayloadFields

/-! ## Bytes that agree under a mask -/

/-- Bytes that agree under a mask agree under every part of it. -/
theorem and_eq_and_of_part {c d m part : Byte} (hpart : m &&& part = part) (h : c &&& m = d &&& m) :
    c &&& part = d &&& part := by
  rw [← hpart, ← BitVec.and_assoc, h, BitVec.and_assoc]

/-- Agreeing under two masks is agreeing under their union. -/
theorem and_or_eq_iff (c d m n : Byte) : c &&& (m ||| n) = d &&& (m ||| n) ↔ c &&& m = d &&& m ∧ c &&& n = d &&& n := by
  refine ⟨fun h => ⟨and_eq_and_of_part ?_ h, and_eq_and_of_part ?_ h⟩, fun ⟨hm, hn⟩ => ?_⟩
  · ext k hk
    simpa using Or.inl
  · ext k hk
    simpa using Or.inr
  · rw [BitVec.and_or_distrib_left, BitVec.and_or_distrib_left, hm, hn]

/-- Bytes that agree under every bit are equal. -/
theorem and_0xFF_eq_iff (c d : Byte) : c &&& 0xFF = d &&& 0xFF ↔ c = d := by
  rw [show (0xFF : Byte) = BitVec.allOnes 8 from rfl, BitVec.and_allOnes, BitVec.and_allOnes]

/-- Flipping a bit outside a mask is not seen under it. -/
theorem xor_and_eq_of_disjoint {m flip : Byte} (h : flip &&& m = 0) (c : Byte) : (c ^^^ flip) &&& m = c &&& m := by
  ext k hk
  have hbit : (flip[k] && m[k]) = false := by simpa using congrArg (·[k]) h
  rw [BitVec.getElem_and, BitVec.getElem_xor, BitVec.getElem_and, Bool.and_xor_distrib_right, hbit, Bool.xor_false]

/-! ## The fields as masks -/

/-- A flag is its one bit. -/
theorem getLsbD_eq_iff (c d : Byte) {k : Nat} (hk : k < 8) :
    c.getLsbD k = d.getLsbD k ↔ c &&& BitVec.twoPow 8 k = d &&& BitVec.twoPow 8 k := by
  have hne : BitVec.twoPow 8 k ≠ 0#8 := by
    intro h
    have hbit := congrArg (BitVec.getLsbD · k) h
    simp [hk] at hbit
  rw [BitVec.and_twoPow, BitVec.and_twoPow]
  cases c.getLsbD k <;> cases d.getLsbD k <;> simp [hne, hne.symm]

/-- A 3-bit code is bits 6..4. -/
theorem extractLsb'_code_eq_iff (c d : Byte) : c.extractLsb' 4 3 = d.extractLsb' 4 3 ↔ c &&& 0x70 = d &&& 0x70 := by
  rw [← BitVec.toNat_inj, ← BitVec.toNat_inj, toNat_and_0x70, toNat_and_0x70]
  omega

theorem setTemp_eq_iff (p q : Payload) : setTemp p = setTemp q ↔ p.p2 &&& 0x0F = q.p2 &&& 0x0F := by
  have hlow (c : Byte) : (c &&& 0x0F).toNat = c.toNat % 16 := by
    rw [BitVec.toNat_and]
    exact Nat.and_two_pow_sub_one_eq_mod c.toNat 4
  rw [← BitVec.toNat_inj, ← BitVec.toNat_inj, toNat_setTemp, toNat_setTemp, hlow, hlow]
  omega

theorem roomTempHalf_eq_iff (p q : Payload) : roomTempHalf p = roomTempHalf q ↔ p.p1 = q.p1 := by
  rw [← BitVec.toNat_inj, ← BitVec.toNat_inj, toNat_roomTempHalf, toNat_roomTempHalf]
  omega

/-! ## The bytes of a status packet, each as what the status decoder reads of it -/

/-- Byte 0 but for bit 7: the mode code, three flags and one residual bit. -/
theorem byte0_but_bit7_eq_iff (c d : Byte) : c &&& 0x7F = d &&& 0x7F ↔
    c.extractLsb' 4 3 = d.extractLsb' 4 3 ∧ c.getLsbD 3 = d.getLsbD 3 ∧ c.getLsbD 2 = d.getLsbD 2 ∧
      c.getLsbD 0 = d.getLsbD 0 ∧ c &&& 0x02 = d &&& 0x02 := by
  have hmask : (0x7F : Byte) =
      0x70 ||| (BitVec.twoPow 8 3 ||| (BitVec.twoPow 8 2 ||| (BitVec.twoPow 8 0 ||| 0x02))) := rfl
  rw [hmask, and_or_eq_iff, and_or_eq_iff, and_or_eq_iff, and_or_eq_iff, extractLsb'_code_eq_iff,
    getLsbD_eq_iff c d (k := 3) (by decide), getLsbD_eq_iff c d (k := 2) (by decide),
    getLsbD_eq_iff c d (k := 0) (by decide)]

/-- Byte 2: one flag, the fan code and the set temperature. -/
theorem byte2_eq_iff (c d : Byte) :
    c = d ↔ c.getLsbD 7 = d.getLsbD 7 ∧ c.extractLsb' 4 3 = d.extractLsb' 4 3 ∧ c &&& 0x0F = d &&& 0x0F := by
  have hmask : (0xFF : Byte) = BitVec.twoPow 8 7 ||| (0x70 ||| 0x0F) := rfl
  rw [← and_0xFF_eq_iff, hmask, and_or_eq_iff, and_or_eq_iff, extractLsb'_code_eq_iff,
    getLsbD_eq_iff c d (k := 7) (by decide)]

/-- Byte 3: one flag and the residual. -/
theorem byte3_eq_iff (c d : Byte) : c = d ↔ c.getLsbD 5 = d.getLsbD 5 ∧ c &&& 0xDF = d &&& 0xDF := by
  have hmask : (0xFF : Byte) = BitVec.twoPow 8 5 ||| 0xDF := rfl
  rw [← and_0xFF_eq_iff, hmask, and_or_eq_iff, getLsbD_eq_iff c d (k := 5) (by decide)]

/-- Byte 4: one flag and the residual. -/
theorem byte4_eq_iff (c d : Byte) : c = d ↔ c.getLsbD 0 = d.getLsbD 0 ∧ c &&& 0xFE = d &&& 0xFE := by
  have hmask : (0xFF : Byte) = BitVec.twoPow 8 0 ||| 0xFE := rfl
  rw [← and_0xFF_eq_iff, hmask, and_or_eq_iff, getLsbD_eq_iff c d (k := 0) (by decide)]

/-! ## The decoders -/

/-- The status decoder reads every bit but bit 7 of byte 0 (R71). -/
theorem decodePanelStatus_eq_iff (p q : Payload) : decodePanelStatus p = decodePanelStatus q ↔
    p.p0 &&& 0x7F = q.p0 &&& 0x7F ∧ p.p1 = q.p1 ∧ p.p2 = q.p2 ∧ p.p3 = q.p3 ∧ p.p4 = q.p4 := by
  rw [byte0_but_bit7_eq_iff, byte2_eq_iff p.p2, byte3_eq_iff p.p3, byte4_eq_iff p.p4, ← roomTempHalf_eq_iff,
    ← setTemp_eq_iff]
  simp only [decodePanelStatus, statusResidual, modeCode, resistorActive, running, settingsChanged, plasma, fanCode,
    swivel, swirl, Prod.mk.injEq, Fields.panelStatus.injEq, StatusFields.mk.injEq, Option.some.injEq,
    Payload.mk.injEq]
  tauto

/-- The features residual is bytes 1 to 3, where an absent one stands for three zero bytes (R151). -/
theorem getD_featuresResidual (p : Payload) : (featuresResidual p).getD zeroPayload = ⟨0, p.p1, p.p2, p.p3, 0⟩ := by
  by_cases h : p.p1 = 0 ∧ p.p2 = 0 ∧ p.p3 = 0
  · rw [PanelDecoder.featuresResidual_of_zero h]
    obtain ⟨h1, h2, h3⟩ := h
    rw [h1, h2, h3]
    rfl
  · rw [PanelDecoder.featuresResidual_of_not_zero h]
    rfl

/-- The features decoder reads bytes 1 to 3 (R71). -/
theorem decodePanelFeatures_eq_iff (p q : Payload) :
    decodePanelFeatures p = decodePanelFeatures q ↔ p.p1 = q.p1 ∧ p.p2 = q.p2 ∧ p.p3 = q.p3 := by
  constructor
  · intro h
    have hresidual := congrArg (fun decoded => decoded.2.getD zeroPayload) h
    simp only [decodePanelFeatures, getD_featuresResidual] at hresidual
    simpa using hresidual
  · rintro ⟨h1, h2, h3⟩
    rw [decodePanelFeatures, decodePanelFeatures, featuresResidual, featuresResidual, h1, h2, h3]

/-- The Unit decoder reads every bit: byte 1 is reported by the temperature, or else by the residual (R142). -/
theorem decodeUnit_eq_iff (p q : Payload) : decodeUnit p = decodeUnit q ↔ p = q := by
  refine ⟨fun h => ?_, congrArg decodeUnit⟩
  obtain ⟨htemp, hresidual⟩ := Prod.mk.inj h
  simp only [unitResidual, Option.some.injEq, Payload.mk.injEq] at hresidual
  obtain ⟨h0, h1, h2, h3, h4⟩ := hresidual
  have hbyte1 : p.p1 = q.p1 := by
    cases hp : noReading p.p1 <;> cases hq : noReading q.p1 <;> rw [hp, hq] at htemp h1
    · exact (roomTempHalf_eq_iff p q).1 (Option.some.inj (Fields.unit.inj htemp))
    · cases htemp
    · cases htemp
    · exact h1
  obtain ⟨p0, p1, p2, p3, p4⟩ := p
  rw [Payload.mk.injEq]
  exact ⟨h0, hbyte1, h2, h3, h4⟩

/-- Settles O44: what each decoder reads. -/
theorem unreportedPayloadBits : Obligations.UnreportedPayloadBits :=
  ⟨decodePanelStatus_eq_iff, decodePanelFeatures_eq_iff, decodeUnit_eq_iff⟩

/-- Settles O43: the status decoder does not read the flipped bit, so the two records have the same fields and residual. -/
theorem statusBitSevenIsDropped : Obligations.StatusBitSevenIsDropped := by
  intro s t u b w a e ht hu
  have hdecoded : decodePanelStatus (Packet.payload { b with b0 := b.b0 ^^^ 0x80, b5 := w }) =
      decodePanelStatus b.payload :=
    (decodePanelStatus_eq_iff _ _).2 ⟨xor_and_eq_of_disjoint rfl b.b0, rfl, rfl, rfl, rfl⟩
  rw [out_of_exec_classInstr (c := .panelStatus) ht, out_of_exec_classInstr (c := .panelStatus) hu, classRecord,
    classRecord, hdecoded]
  rfl

end Sys2Proof.Proofs.ReportedBits
end

section
/-! Validation of a changed packet (41_checksum.md R121): the checksum tells apart payloads that differ in one byte, and not
those with the same sum. -/

namespace Sys2Proof.Proofs.SingleByteErrors

open Sys2Proof.Machine
open Sys2Proof.Proofs.PacketEncoding

/-- The mask is invertible: equal checksums are equal sums (R120). -/
theorem checksum_eq_iff (p q : Payload) :
    checksum p = checksum q ↔ p.p0 + p.p1 + p.p2 + p.p3 + p.p4 = q.p0 + q.p1 + q.p2 + q.p3 + q.p4 := by
  rw [checksum, checksum, BitVec.xor_left_inj]

/-- A packet with the trailer of a valid one and another checksum fails validation. -/
theorem validate_eq_false_of_checksum_ne {b c : Packet} (h : validate b = true) (htrailer : c.b5 = b.b5)
    (hne : checksum c.payload ≠ checksum b.payload) : validate c = false := by
  rw [validate_eq_false_iff, htrailer, (validate_eq_true_iff b).1 h]
  exact hne.symm

/-- Settles O27: one changed byte changes the sum, as byte addition can be undone, and a changed trailer is not the
checksum; moving 1 from one byte to another leaves the sum. -/
theorem validateFindsSingleByteErrors : Obligations.ValidateFindsSingleByteErrors := by
  refine fun b => ⟨validate_eq_true_iff b, fun h v => ⟨fun hv => ?_, fun hv => ?_, fun hv => ?_, fun hv => ?_,
    fun hv => ?_, fun hv => ?_⟩, ?_⟩
  · exact validate_eq_false_of_checksum_ne h rfl (by simpa [checksum_eq_iff, Packet.payload] using hv)
  · exact validate_eq_false_of_checksum_ne h rfl (by simpa [checksum_eq_iff, Packet.payload] using hv)
  · exact validate_eq_false_of_checksum_ne h rfl (by simpa [checksum_eq_iff, Packet.payload] using hv)
  · exact validate_eq_false_of_checksum_ne h rfl (by simpa [checksum_eq_iff, Packet.payload] using hv)
  · exact validate_eq_false_of_checksum_ne h rfl (by simpa [checksum_eq_iff, Packet.payload] using hv)
  · rw [validate_eq_false_iff]
    exact fun hchecksum => hv (hchecksum.trans ((validate_eq_true_iff b).1 h).symm)
  · have hsum : b.b0 + 1 + (b.b1 - 1) = b.b0 + b.b1 := by ring
    have hchecksum : checksum (Packet.payload { b with b0 := b.b0 + 1, b1 := b.b1 - 1 }) = checksum b.payload := by
      rw [checksum_eq_iff]
      simp only [Packet.payload, hsum]
    rw [validate, validate, hchecksum]

end Sys2Proof.Proofs.SingleByteErrors
end

section
/-! The record-assembly machine line by line (40_frame_aggregator.md R105, R107, R108), the two-second gap
(70_reset_and_hazards.md R238), and the first packet of a session (R231). -/

namespace Sys2Proof.Proofs.AssemblyTable

open Sys2Proof.Machine
open Sys2Proof.Proofs.FrameAggregator
open Sys2Proof.Proofs.PacketEmitter

/-! ## What DATA raises -/

/-- Where the gap test fires, the byte is held alone, so the discard is all that is raised (R201). -/
theorem errorsRaised_data_of_fires {s : State} {a : Nat} (h : s.gapFires a) (v : Byte) (b : Nat) :
    errorsRaised (.data v a b) s = [.partialPacket] := by
  rw [errorsRaised, errorsRaisedAt, (Laws.discards_iff Config.params s a).2 h,
    Laws.afterGapTest_of_fires (p := Config.params) h]
  rfl

/-- A byte held behind others raises nothing. -/
theorem errorsRaised_data_of_hold {s : State} {a : Nat} (h : ¬ s.gapFires a) (hcnt : s.cnt.val < 5) (v : Byte) (b : Nat) :
    errorsRaised (.data v a b) s = [] := by
  obtain ⟨l, happend, -⟩ := Laws.append_held s.buffer v a b hcnt
  rw [errorsRaised, errorsRaisedAt, (Laws.discards_eq_false_iff Config.params s a).2 h,
    Laws.afterGapTest_of_not (p := Config.params) h, happend]
  rfl

/-- A sixth byte ends the packet with its class's record, and raises what the class does. -/
theorem exec_data_of_sixth {s t : State} {v : Byte} {a b : Nat} (hcnt : s.cnt.val = 5) (h : ¬ s.gapFires a)
    (hexec : exec (.data v a b) s = .next t) :
    ∃ q start, t.out = (classRecord (packetClass Config.params s.anchor q start) q start b).bundle ∧
      errorsRaised (.data v a b) s = classErrors (packetClass Config.params s.anchor q start) q := by
  obtain ⟨q, start, happend, -, -⟩ := Laws.append_complete s.buffer v a b hcnt
  have hkept := Laws.afterGapTest_of_not (p := Config.params) h
  have hcomplete := (exec_data_of_complete (hkept ▸ happend)).trans (exec_decodePacket ..)
  cases hcomplete.symm.trans hexec
  refine ⟨q, start, rfl, ?_⟩
  rw [errorsRaised, errorsRaisedAt, (Laws.discards_eq_false_iff Config.params s a).2 h, hkept, happend]
  rfl

/-! ## The gap -/

/-- Settles O18: after a discard the state is the new byte alone with the anchor and the stream as they were. -/
theorem discardLeavesNoTrace : Obligations.DiscardLeavesNoTrace := by
  intro v a b s₁ s₂ h₁ h₂ hanchor hinput
  have hexec₁ : exec (.data v a b) s₁ = .next (s₁.hold (.fill1 v a b)) := Laws.execDataAt_discard _ v a b s₁ h₁
  have hexec₂ : exec (.data v a b) s₂ = .next (s₂.hold (.fill1 v a b)) := Laws.execDataAt_discard _ v a b s₂ h₂
  refine ⟨?_, _, hexec₁, rfl, rfl, rfl, errorsRaised_data_of_fires h₁ v b⟩
  rw [hexec₁, hexec₂, State.hold, State.hold, hanchor, hinput]

/-- Settles O51: `GAP_MAX` is below two seconds in every legal configuration, and `ofNumbers` makes exactly the legal
ones. -/
theorem twoSecondGapAlwaysDiscards : Obligations.TwoSecondGapAlwaysDiscards := by
  refine ⟨fun p s v a b e he hgap => ?_, fun w hz g => ?_, fun w hz g p h => ?_⟩
  · have hfires : s.gapFiresAt p a := (gapFiresAt_iff_of_prevEnd he a).2 (by have := p.gapMax_lt; omega)
    exact ⟨_, Laws.execDataAt_discard p v a b s hfires, rfl, rfl⟩
  · rw [Config.Params.ofNumbers, dite_eq_right_iff]
    simp only [reduceCtorEq, imp_false]
    omega
  · rw [Config.Params.ofNumbers] at h
    split at h
    · cases h
      exact ⟨rfl, rfl, rfl⟩
    · cases h

/-! ## The transition table -/

/-- The lines of the table for DATA (R107). -/
theorem exec_data_transition (s : State) (v : Byte) (a b : Nat) :
    ∃ t, exec (.data v a b) s = .next t ∧
      (s.cnt.val = 0 → t.cnt.val = 1 ∧ t.out = .noRecord) ∧
      (1 ≤ s.cnt.val → s.cnt.val ≤ 4 → ¬ s.gapFires a → t.cnt.val = s.cnt.val + 1 ∧ t.out = .noRecord) ∧
      (1 ≤ s.cnt.val → s.gapFires a → t.cnt.val = 1 ∧ t.bytes = [v] ∧ t.out = .noRecord) ∧
      (s.cnt.val = 5 → ¬ s.gapFires a → t.cnt.val = 0 ∧ t.out.valid = true ∧ t.anchor = some b) := by
  by_cases hgap : s.gapFires a
  · exact ⟨_, Laws.execDataAt_discard _ v a b s hgap, fun _ => ⟨rfl, rfl⟩, fun _ _ hnot => absurd hgap hnot,
      fun _ _ => ⟨rfl, rfl, rfl⟩, fun _ hnot => absurd hgap hnot⟩
  · rcases Nat.lt_or_ge s.cnt.val 5 with hless | hfive
    · obtain ⟨l, hexec, -, hcnt, -⟩ := Laws.execDataAt_hold _ v a b s hgap hless
      refine ⟨_, hexec, fun hzero => ⟨?_, rfl⟩, fun _ _ _ => ⟨hcnt, rfl⟩, fun _ hfires => absurd hfires hgap,
        fun hfive => absurd hfive (by omega)⟩
      exact hcnt.trans (by rw [hzero])
    · obtain ⟨q, start, -, -, hexec⟩ := Laws.execDataAt_complete _ v a b s hgap (by omega)
      obtain ⟨hvalid, -⟩ := Laws.classRecord_bundle (packetClass Config.params s.anchor q start) q start b
      exact ⟨_, hexec, fun hzero => absurd hzero (by omega), fun _ hless => absurd hless (by omega),
        fun _ hfires => absurd hfires hgap, fun _ _ => ⟨rfl, hvalid, rfl⟩⟩

/-- Settles O20: the lines for DATA, and the whole effect of the other commands. -/
theorem transitionTable : Obligations.TransitionTable := fun s =>
  ⟨⟨_, exec_idle s, rfl, rfl⟩, ⟨_, exec_other s, rfl, rfl⟩, ⟨_, RecordAndReset.exec_sessionReset s, rfl, rfl, rfl⟩,
    exec_data_transition s⟩

/-- Settles O21: IDLE and OTHER change only the bundle, which DATA does not read. -/
theorem onlyDataMovesPrevEnd : Obligations.OnlyDataMovesPrevEnd := by
  rintro s t i (rfl | rfl) h
  · cases (exec_idle s).symm.trans h
    exact ⟨rfl, fun v a b => exec_data_congr_out v a b s .noRecord⟩
  · cases (exec_other s).symm.trans h
    exact ⟨rfl, fun v a b => exec_data_congr_out v a b s .noRecord⟩

/-! ## The source -/

/-- Settles O32: a gap that is not positive is below 300 ms, as a second has a positive number of ticks. -/
theorem nonPositiveGapIsUnit : Obligations.NonPositiveGapIsUnit := by
  intro p e a h
  rw [Classifier.classify_some_eq_unit_iff]
  have := p.tickHz_pos
  omega

/-- Without an anchor no packet is a UNIT_RESPONSE. -/
theorem packetClass_none_ne_unitResponse (p : Config.Params) (b : Packet) (a : Nat) :
    packetClass p none b a ≠ .unitResponse := by
  rw [Ne, PacketEncoding.packetClass_eq_iff]
  exact fun ⟨_, hunit⟩ => classify_none_ne_unit p a hunit

/-- Settles O33: the packet that validates is of a valid class, and without an anchor not of the Unit's. -/
theorem firstValidPacketIsPanel : Obligations.FirstValidPacketIsPanel := by
  intro s t v a b hanchor hcnt hgap hexec hvalid
  obtain ⟨q, start, hout, -⟩ := exec_data_of_sixth hcnt hgap hexec
  obtain ⟨-, hbytes, -⟩ := Laws.classRecord_bundle (packetClass Config.params s.anchor q start) q start b
  obtain ⟨-, hsource, -⟩ := RecordVariant.variant_classRecord (packetClass Config.params s.anchor q start) q start b
  rw [hout, hbytes] at hvalid
  rw [hout, RecordVariant.kind_eq_validate, hsource, hanchor]
  exact ⟨hvalid, decide_eq_false (packetClass_none_ne_unitResponse _ q start)⟩

end Sys2Proof.Proofs.AssemblyTable
end

section
/-! The error classes (60_exceptions.md R201): what each class of packet raises, against what its record drives. -/

namespace Sys2Proof.Proofs.ErrorClasses

open Sys2Proof.Machine
open Sys2Proof.Proofs.AssemblyTable

/-! ## A packet's class -/

theorem checksum_mem_classErrors_iff (c : PacketClass) (b : Packet) :
    ErrorClass.checksum ∈ classErrors c b ↔ c = .invalidChecksum := by
  cases c with
  | panelStatus =>
    rw [classErrors]
    split <;> simp
  | _ => simp [classErrors]

/-- No packet is partial. -/
theorem partialPacket_not_mem_classErrors (c : PacketClass) (b : Packet) :
    ErrorClass.partialPacket ∉ classErrors c b := by
  cases c with
  | panelStatus =>
    rw [classErrors]
    split <;> simp
  | _ => simp [classErrors]

/-- A status packet raises `E_FIELD_CODE` exactly when its record drives a known bit 0. -/
theorem fieldCode_mem_classErrors_panelStatus_iff (b : Packet) (a e : Nat) :
    ErrorClass.fieldCode ∈ classErrors .panelStatus b ↔
      (classRecord .panelStatus b a e).bundle.modeKnown = false ∨
        (classRecord .panelStatus b a e).bundle.fanKnown = false := by
  have hmode : (classRecord .panelStatus b a e).bundle.modeKnown = modeKnown (modeCode b.payload) := rfl
  have hfan : (classRecord .panelStatus b a e).bundle.fanKnown = fanKnown (fanCode b.payload) := rfl
  rw [hmode, hfan, ← Bool.and_eq_false_iff, classErrors]
  split <;> simp [*]

/-- The record of a status packet is the valid one that is neither the Unit's nor a features inquiry's. -/
theorem eq_panelStatus_iff (c : PacketClass) (b : Packet) (a e : Nat) :
    c = .panelStatus ↔ (classRecord c b a e).bundle.kind = true ∧ (classRecord c b a e).bundle.source = false ∧
      (classRecord c b a e).bundle.features = false := by
  obtain ⟨hkind, hsource, hfeatures⟩ := RecordVariant.variant_classRecord c b a e
  rw [hkind, hsource, hfeatures]
  cases c <;> decide

/-- No packet but a status packet raises `E_FIELD_CODE` (R205). -/
theorem fieldCode_mem_classErrors_iff (c : PacketClass) (b : Packet) (a e : Nat) :
    ErrorClass.fieldCode ∈ classErrors c b ↔ c = .panelStatus ∧
      ((classRecord c b a e).bundle.modeKnown = false ∨ (classRecord c b a e).bundle.fanKnown = false) := by
  cases c with
  | panelStatus => rw [fieldCode_mem_classErrors_panelStatus_iff b a e, eq_self, true_and]
  | _ => simp [classErrors]

/-! ## A step -/

/-- A DATA byte that completes no packet raises the discard or nothing, and drives nothing. -/
theorem errorsRaised_data_of_not_sixth {s : State} {a : Nat} (h : ¬ (s.cnt.val = 5 ∧ ¬ s.gapFires a)) (v : Byte)
    (b : Nat) :
    (s.gapFires a ∧ errorsRaised (.data v a b) s = [.partialPacket]) ∨
      (¬ s.gapFires a ∧ errorsRaised (.data v a b) s = []) := by
  by_cases hgap : s.gapFires a
  · exact .inl ⟨hgap, errorsRaised_data_of_fires hgap v b⟩
  · have hcnt : s.cnt.val ≠ 5 := fun hfive => h ⟨hfive, hgap⟩
    exact .inr ⟨hgap, errorsRaised_data_of_hold hgap (by omega) v b⟩

/-- SESSION_RESET raises `E_PARTIAL` exactly when it discards bytes (R201). -/
theorem partialPacket_mem_errorsRaised_sessionReset_iff (s : State) :
    ErrorClass.partialPacket ∈ errorsRaised .sessionReset s ↔ s.cnt ≠ 0 := by
  rw [State.cnt, Ne, Laws.cnt_eq_zero_iff, errorsRaised, errorsRaisedAt]
  split <;> simp [*]

/-- Settles O47: a sixth byte raises what its packet's class does and drives that class's record, and any other byte drives
nothing and raises at most the discard. -/
theorem errorClassesAreReportedInBand : Obligations.ErrorClassesAreReportedInBand := by
  intro s t v a b hexec
  by_cases hsixth : s.cnt.val = 5 ∧ ¬ s.gapFires a
  · obtain ⟨hcnt, hgap⟩ := hsixth
    obtain ⟨q, start, hout, herrors⟩ := exec_data_of_sixth hcnt hgap hexec
    rw [hout, herrors]
    generalize packetClass Config.params s.anchor q start = c
    obtain ⟨hvalid, -⟩ := Laws.classRecord_bundle c q start b
    obtain ⟨hkind, -⟩ := RecordVariant.variant_classRecord c q start b
    have hpartial := partialPacket_not_mem_classErrors c q
    refine ⟨?_, ?_, iff_of_false hpartial hgap, fun h => absurd h hpartial,
      partialPacket_mem_errorsRaised_sessionReset_iff s⟩
    · rw [checksum_mem_classErrors_iff, hvalid, hkind, eq_self, true_and, decide_eq_false_iff_not, not_not]
    · rw [fieldCode_mem_classErrors_iff c q start b, eq_panelStatus_iff c q start b, hvalid, eq_self, true_and, and_assoc,
        and_assoc]
  · obtain ⟨k, rfl⟩ := PacketEmitter.state_of_exec_data_of_not_sixth hsixth hexec
    have hvalid : ¬ (s.hold k).out.valid = true := Bool.false_ne_true
    have hreset := partialPacket_mem_errorsRaised_sessionReset_iff s
    rcases errorsRaised_data_of_not_sixth hsixth v b with ⟨hgap, herrors⟩ | ⟨hgap, herrors⟩ <;> rw [herrors]
    · exact ⟨iff_of_false (by decide) fun h => hvalid h.1, iff_of_false (by decide) fun h => hvalid h.1,
        iff_of_true (by decide) hgap, fun _ => Laws.hold_out s k, hreset⟩
    · exact ⟨iff_of_false (by decide) fun h => hvalid h.1, iff_of_false (by decide) fun h => hvalid h.1,
        iff_of_false (by decide) hgap, fun _ => Laws.hold_out s k, hreset⟩

end Sys2Proof.Proofs.ErrorClasses
end
